-- ==== Sys2Proof/Word.lean ====
section
/-! DEFINITION. The word types of the TM3: bytes, 64-bit words and registers, request headers (Table 3.5) and
link packet headers (Tables 9.5 and 9.9). -/
namespace Sys2Proof

/-- One byte of a line, a beat or a packet payload. -/
abbrev Byte := BitVec 8

/-- A word of memory and a register of the window: 64 bits (§0.5). -/
abbrev Word := BitVec 64

/-- A request header, `REQ_HDR` (Table 3.5). -/
abbrev Hdr := BitVec 256

/-- A link packet header, `LTX_HDR` and `LRX_HDR` (Tables 9.5 and 9.9). -/
abbrev Pkt := BitVec 128

end Sys2Proof
end

