-- ==== Sys2Proof/Syntax.lean ====
section
/-! DEFINITION. The commands of the TM3 block: one constructor for each row of spec/opcode_table.json, with its operands.
An operand that only the world outside the model fixes (a fuse word, a temperature, what a failing array reads back) is an
input of the command (log 15). -/
namespace Sys2Proof

/-- What wakes the block from a power state (R261). -/
inductive WakeCause where
  /-- A level on a port's `REQ_VALID`. -/
  | req
  /-- A level on `CP_REG_VALID`: a write or a read of the offset. -/
  | cpReg (write : Bool) (off : Nat)
  /-- A level on `LRX_VALID` of RP or TP. -/
  | link
  /-- A change of `LINK_UP`. -/
  | linkUp
  /-- A cause newly set in the global interrupt block, a trip among them (R326). -/
  | irq
  deriving DecidableEq, Repr

/-- Why CC2 starts a retirement without a command (R226). -/
inductive RetireCause where
  /-- The array has a hard fault (R223, R224). -/
  | hardFault
  /-- The failing-word count of the pass exceeds `RET_WORDS`. -/
  | words
  deriving DecidableEq, Repr

/-- The slice faults of R296. -/
inductive SliceFaultKind where
  | pll | reg | xing
  deriving DecidableEq, Repr

/-- What the arrays give the reads of a test step other than what they hold (R223, R224): by line of the shaving, the bits of a
72-bit word, and of the outer-code field, that read back inverted. -/
structure ReadBack where
  words : List (Nat × Nat × Nat)
  outer : List (Nat × Nat)
  deriving DecidableEq, Repr

/-- What the pattern test of an unused spare finds (R222, R223): the spare's slice and position (64 or 65), its failing words as
line, word and differing bits, failing outer-code fields by line, and whether an access check tripped. -/
structure SpareTest where
  sl : Nat
  pos : Nat
  words : List (Nat × Nat × Nat)
  outer : List (Nat × Nat)
  access : Bool
  deriving DecidableEq, Repr

/-- What the sensors and monitors read at a turn boundary, one number a domain (R249, R255). -/
structure Sensors where
  temps : List Nat
  margins : List Nat
  deriving DecidableEq, Repr

/-- What step H4 of a slice recovery finds (R297): the converged trims, 64 meaning none, and the tests of the unused spares. -/
structure Recalibration where
  trims : List Nat
  tests : List SpareTest
  deriving DecidableEq, Repr

/-- A host read: its offset, and `FTIME` in its cycle, which `SYNC.FTIME` returns (R163, R166). -/
structure HostRead where
  off : Nat
  ftime : Word
  deriving DecidableEq, Repr

/-- Rows, or columns, of a sub-array that fail under a background of the memory test (R324): background 0 to 3, physical bank,
sub-array, addresses. -/
structure SubFail where
  bg : Nat
  pb : Nat
  sub : Nat
  lines : List Nat
  deriving DecidableEq, Repr

/-- The commands. -/
inductive Instr where
  /-- `NOP` (R52). A partner NOP request is accepted or refused and answered OK with no effect. -/
  | nop (p : Nat) (h : Hdr)
  /-- `RD` (R72). An inline-shape read passes the acceptance checks, is expanded into line accesses and issued, or is refused. -/
  | rd (p : Nat) (h : Hdr)
  /-- `RDV` (R80). A read through a view takes a snapshot of the view entry and reads the rows it generates. -/
  | rdv (p : Nat) (h : Hdr)
  /-- `WR` (R54). A write of an inline shape is accepted or refused, and its rows are quantised and written from the beats that follow. -/
  | wr (p : Nat) (h : Hdr)
  /-- `WRV` (R80). A write through a view snapshot writes the rows the view generates. -/
  | wrv (p : Nat) (h : Hdr)
  /-- `WRP` (R55). A write of enabled words only writes each word whose REQ_WEN bit is 1. -/
  | wrp (p : Nat) (h : Hdr)
  /-- `ACC` (R167). An fp32 accumulate is checked against the replay filter, and its rows are added into an FP32 region. -/
  | acc (p : Nat) (h : Hdr)
  /-- `ACCX` (R171). An FX64 accumulate converts its addends and adds them modulo 2^64 into an FX64 region. -/
  | accx (p : Nat) (h : Hdr)
  /-- `CNT_ADD` (R146). A counter add is applied at the sync engine, saturating, or is routed to another instance. -/
  | cntAdd (p : Nat) (h : Hdr)
  /-- `CNT_WAIT` (R62). A counter wait is answered OK if the counter has reached VALUE, and otherwise YIELD with the wait registered. -/
  | cntWait (p : Nat) (h : Hdr)
  /-- `CNT_RD` (R146). A counter read returns the counter value. -/
  | cntRd (p : Nat) (h : Hdr)
  /-- `FLG_SET` (R146). A flag set sets the flag and returns its previous value, or is routed. -/
  | flgSet (p : Nat) (h : Hdr)
  /-- `FLG_CLR` (R146). A flag clear clears the flag and returns its previous value, or is routed. -/
  | flgClr (p : Nat) (h : Hdr)
  /-- `FLG_WAIT` (R62). A flag wait is answered OK if the flag matches COND, and otherwise YIELD with the wait registered. -/
  | flgWait (p : Nat) (h : Hdr)
  /-- `FLG_TEST` (R146). A flag test returns the flag. -/
  | flgTest (p : Nat) (h : Hdr)
  /-- `RANGE_OPEN` (R122). A range open is checked, and the span is then entered in the lowest free scoreboard entry or answered RETRY. -/
  | rangeOpen (p : Nat) (h : Hdr)
  /-- `RANGE_CLOSE` (R125). A range close, normal or aborted, is evaluated against the entry and marks it closing, or is answered BUSY. -/
  | rangeClose (p : Nat) (h : Hdr)
  /-- `STREAM_OPEN` (R128). A stream open opens a run-ahead stream with a view snapshot, depth and gating counter. -/
  | streamOpen (p : Nat) (h : Hdr)
  /-- `STREAM_STEP` (R130). A stream step asks for the next step of an open stream, gated by the counter reaching VALUE. -/
  | streamStep (p : Nat) (h : Hdr)
  /-- `STREAM_CLOSE` (R128). A stream close discards the prefetch buffer, aborts any waiting step and releases the region. -/
  | streamClose (p : Nat) (h : Hdr)
  /-- `INVAL` (R133). An invalidate removes the lines of its shape, and their MX scale lines, from a VP line cache, and has no effect on other ports. -/
  | inval (p : Nat) (h : Hdr)
  /-- `FENCE` (R52). A fence is answered once every earlier request of the port has its response and every earlier write is visible at SCOPE. -/
  | fence (p : Nat) (h : Hdr)
  /-- `WRITE_DATA_BEAT` (R67). A write-data beat is associated with the oldest write that lacks beats, or is discarded with ERR.BEAT or ERR.CRD set. -/
  | writeDataBeat (p : Nat) (data : List Byte) (wen : Nat)
  /-- `HOG_CUTOFF` (R66). The write lease expires, and the write is ended with a HOG event and an ABORT response. -/
  | hogCutoff (p : Nat)
  /-- `CONTEXT_MISS` (R151). CC3 serves a held request's non-resident context by loading it, evicting the least recently used unpinned context if needed, or answers RETRY. -/
  | contextMiss (p : Nat)
  /-- `ACCUMULATE_GATE_ADMIT` (R174). A group's accumulate gate admits one waiting accumulate line into arbitration. -/
  | accumulateGateAdmit (g : Nat)
  /-- `BANK_GRANT` (R101). In a grant cycle a group switch grants one access per bank under the slot table and ranks, folds reads and parks the losers. -/
  | bankGrant (g : Nat) (trips : List Nat)
  /-- `SCOREBOARD_RELEASE` (R123). A held read row is released when no range in force overlaps it any longer, and its lines are issued. -/
  | scoreboardRelease (p : Nat)
  /-- `RANGE_CLOSE_IN_FORCE` (R125). A close comes into force once its port's earlier writes are visible, the entry becomes invalid and the close is acknowledged. -/
  | rangeCloseInForce (i : Nat)
  /-- `STREAM_PREFETCH` (R129). A stream tracker fetches lines of undelivered steps while it has room within its depth. -/
  | streamPrefetch (p k : Nat)
  /-- `STREAM_STEP_DELIVER` (R130). A step is delivered once the gating condition holds and all its lines are present and not squashed. -/
  | streamStepDeliver (p k : Nat)
  /-- `FINAL_ADVANCE` (R53). After every line of a FINAL write has been stored and is visible, its counter is advanced by FADD and the write is acknowledged. -/
  | finalAdvance (p : Nat)
  /-- `WAIT_RELEASE` (R62). A registered wait whose condition comes to hold is released with a wake pulse or a READY event. -/
  | waitRelease (p : Nat)
  /-- `HELD_WAIT_ANSWER` (R149). A wait held for want of a waiter entry is answered OK when its condition holds, or YIELD when an entry frees. -/
  | heldWaitAnswer (p : Nat)
  /-- `RING_HOLD_APPLY` (R156). A counter operation held at a ring bound is applied in the first cycle in which it fits. -/
  | ringHoldApply (p : Nat)
  /-- `DREQ_PULSE` (R158). A DREQ line is pulsed for each burst of room or data on its bound ring. -/
  | dreqPulse (k : Nat)
  /-- `OVERFLOW_EVENT` (R65). After READY events have been dropped, an OVERFLOW event is sent once the event queue has room. -/
  | overflowEvent (p : Nat)
  /-- `RWRITE_SEND` (R185). The RP chuck cuts a remote write into segments and sends one RWRITE per segment, and a closing packet for FINAL. -/
  | rwriteSend (p : Nat)
  /-- `RSIG_SEND` (R161). A routed operation whose release is complete is stamped with FTIME and sent as an RSIG with its due time. -/
  | rsigSend (p : Nat) (ftime : Word)
  /-- `RWRITE` (R191). The owner's RP checks an inbound RWRITE data packet, answers it with an RNACK and issues its lines. -/
  | rwrite (h : Pkt) (data : List Byte)
  /-- `CLOSING_PACKET` (R196). The owner checks an inbound closing packet of a batch and holds it until the batch is done. -/
  | closingPacket (h : Pkt) (data : List Byte)
  /-- `BATCH_CLOSE` (R196). When a held closing packet's batch reaches NPKT done packets, the owner advances the counter or refuses, answers, and frees the entry. -/
  | batchClose (b : Nat)
  /-- `BATCH_TIMEOUT` (R196). A closing packet held BTO turns is discarded and answered ECC, and RMT.ERR.BTO is set. -/
  | batchTimeout (b : Nat)
  /-- `RSIG` (R162). The owner checks an inbound RSIG, answers it, and places it in the timed queue or applies it late. -/
  | rsig (h : Pkt) (data : List Byte) (ftime : Word)
  /-- `RSIG_APPLY` (R162). A queued remote signal is applied as port 10 in the first cycle in which FTIME reaches its due time. -/
  | rsigApply (ftime : Word)
  /-- `RNACK` (R197). The sending RP takes an RNACK for a sent packet, resolves the remote write's code and acknowledges at the issuing port when all are answered. -/
  | rnack (h : Pkt)
  /-- `RETRY_RESEND` (R198). A packet answered RETRY is resent one turn after the answer. -/
  | retryResend (tag : Nat)
  /-- `RESPONSE_TIMEOUT` (R199). A packet unanswered for RTO turns is answered ECC at the sender and RMT.ERR.RTO is set. -/
  | responseTimeout (tag : Nat)
  /-- `LINK_LOST` (R198). The link reports a lost outbound packet, and the RP or TP chuck resends or regenerates it. -/
  | linkLost (tp : Bool) (h : Pkt)
  /-- `LINK_UP_CHANGE` (R199). LINK_UP rises or falls; credits are reset and, on a fall, every unanswered packet is answered and TP goes DOWN. -/
  | linkUpChange (tp up : Bool)
  /-- `LINK_TX_CREDIT` (R49). The link grants one transmit credit to RP or TP. -/
  | linkTxCredit (tp : Bool)
  /-- `TWRITE` (R205). The peer writes a mirrored twin-region line as agent 11 and answers TACK once it has committed. -/
  | twrite (h : Pkt) (data : List Byte)
  /-- `TACK` (R206). A TACK completes a mirror, schedules a resend on RETRY, or marks the unit dirty on ECC. -/
  | tack (h : Pkt)
  /-- `TWIN_RETRY_RESEND` (R206). A TWRITE answered TACK RETRY is resent one turn later. -/
  | twinRetryResend (tag : Nat)
  /-- `TWIN_TIMEOUT` (R206). A TWRITE or TFETCH unanswered for TTO turns sets TWIN.STAT.STATE to DOWN. -/
  | twinTimeout (tag : Nat)
  /-- `TFETCH` (R208). The peer reads its copy of a twin line as agent 11 and answers TDATA. -/
  | tfetch (h : Pkt)
  /-- `TDATA` (R208). A TDATA answer delivers the repaired row and writes the copy back, or returns ECC when no good copy exists. -/
  | tdata (h : Pkt) (data : List Byte)
  /-- `BIND_MESSAGE` (R202). A BIND control message exchanges identity for twin binding, and a reported reset makes the receiver DOWN. -/
  | bindMessage (h : Pkt) (data : List Byte)
  /-- `REGION_MESSAGE` (R203). A REGION control message applies a twin region definition at the peer and answers its code. -/
  | regionMessage (h : Pkt) (data : List Byte)
  /-- `DELETE_MESSAGE` (R203). A DELETE control message deletes a twin region at the peer. -/
  | deleteMessage (h : Pkt) (data : List Byte)
  /-- `CLEAR_MESSAGE` (R203). A CLEAR control message clears a twin region at the peer. -/
  | clearMessage (h : Pkt) (data : List Byte)
  /-- `DIRTY_MESSAGE` (R210). A DIRTY control message returns a chunk of the dirty map. -/
  | dirtyMessage (h : Pkt) (data : List Byte)
  /-- `UNBIND_MESSAGE` (R202). An UNBIND control message dissolves the twin pair at the peer. -/
  | unbindMessage (h : Pkt) (data : List Byte)
  /-- `DOWN_MESSAGE` (R209). A DOWN control message makes the receiver set STATE DOWN. -/
  | downMessage (h : Pkt) (data : List Byte)
  /-- `TURN_BOUNDARY` (R27). At each turn boundary the slot swaps and rank changes apply, and power estimates, throttling, ramp allowances and hang counts are updated. -/
  | turnBoundary (ftime : Word) (sensors : Sensors) (stopped : Nat)
  /-- `THROTTLE_UNDO` (R251). After four calm turns the top throttling action is undone. -/
  | throttleUndo
  /-- `IDLE_LOWERING` (R254). After 16 turns of low activity a domain's target falls by one point, not below FLOOR. -/
  | idleLowering (d : Nat)
  /-- `BOOST` (R254). After 16 turns with no throttling, low power and cool domains, the target rises by one point, not above CEIL. -/
  | boost (d : Nat)
  /-- `PORT_HANG` (R288). A port's STALL count reaches WINDOW, and a HANG event, a capture and IRQ_HANG follow. -/
  | portHang (p : Nat)
  /-- `CONTEXT_HANG` (R289). A context's stall count reaches WINDOW, and HANG events and IRQ_HANG follow. -/
  | contextHang (slot : Nat)
  /-- `CC_HANG` (R24). A control-core heartbeat has not advanced for 256 turns; CC_HANG is set and IRQ_HANG asserted. -/
  | ccHang (cores : Nat)
  /-- `IDLE_ENTRY` (R260). The quiet-turn count reaches T1 or T2 and entry to PS1 or PS2 begins. -/
  | idleEntry
  /-- `WAKE_EVENT` (R261). A wake event abandons a power-state entry, or starts the exit from PS1 or PS2. -/
  | wakeEvent (cause : WakeCause)
  /-- `SHAVING_START` (R222). A slice's test engine starts its next shaving, or skips it, once PERIOD turns have passed. -/
  | shavingStart (sl : Nat)
  /-- `SHAVING_STEP` (R219). A test engine runs one step of a shaving: copy, pattern, compare, guard read or restore. -/
  | shavingStep (sl : Nat) (seen : ReadBack)
  /-- `RETIREMENT_START` (R226). CC2 starts retiring a logical bank on a hard fault or failing-word count, or makes it DEAD when no spare is free. -/
  | retirementStart (lb : Nat) (cause : RetireCause)
  /-- `MIGRATION_SWITCH` (R227). When the copy of a retiring bank completes, the remap switches to the spare and the retirement is recorded. -/
  | migrationSwitch (sl : Nat)
  /-- `SLICE_FAULT` (R296). A PLL, regulator or crossing fault holds a slice and, when enabled, starts its recovery. -/
  | sliceFault (sl : Nat) (kind : SliceFaultKind)
  /-- `RECOVERY_START` (R298). A waiting slice recovery starts when a place frees. -/
  | recoveryStart
  /-- `RECOVERY_COMPLETE` (R297). A slice recovery ends: the freeze and hold clear, and any suspended migration restarts. -/
  | recoveryComplete (sl : Nat) (found : Recalibration)
  /-- `COLD_RESET` (R316). The release of PORESET_N samples INST_ID, reads fuses, blanks every line and starts the boot ROM. -/
  | coldReset (instId : Nat) (fuse : List (Nat × Nat))
  /-- `WARM_RESET` (R317). WRESET_N stops the chucks, completes bank accesses and restarts the boot sequence while keeping line data. -/
  | warmReset
  /-- `IMAGE_CHECK` (R271). The boot ROM's image checks complete, starting the cores in INIT or entering FAIL with REASON. -/
  | imageCheck
  /-- `SECEN_INIT_DONE` (R272). Secen finishes INIT, loads the keep state and reports READY. -/
  | secenInitDone (tests : Option (List SpareTest))
  /-- `BOOT_GO` (R269). A write of GO in LOAD or FAIL starts CHECK. -/
  | bootGo
  /-- `VA_LOST` (R315). VA_OK falls; every slice regulator is switched off and every slice held. -/
  | vaLost
  /-- `THERMAL_TRIP` (R326). Two low samples of THERM_TRIP_N gate classes, record a fault and lower every domain to OP0. -/
  | thermalTrip
  /-- `VF_READY` (R238). The regulator confirms the VDD_F step and the handshake completes. -/
  | vfReady
  /-- `VF_TIMEOUT` (R238). VF_READY does not arrive within VFTO turns, and PWR.NOTE.VF_TO is set. -/
  | vfTimeout
  /-- `DROOP` (R243). A domain's supply droop stretches its clock and pauses voltage steps and raises. -/
  | droop (d : Nat)
  /-- `DROOP_CLEAR` (R243). A droop clears, stretching ends and the paused sequence resumes. -/
  | droopClear (d : Nat)
  /-- `DROOP_LONG` (R246). A droop lasting 256 cycles sets DROOP_LONG, and CC1 lowers the domain's target one point. -/
  | droopLong (d : Nat)
  /-- `FTIME_BAD` (R163). FTIME decreases, or stays unchanged for 256 cycles, and SYNC.ERR.FTIME_BAD is set. -/
  | ftimeBad (ftime : Word)
  /-- `AGEING_SAMPLE` (R306). Every 60 run minutes CC1 samples each domain's margin. -/
  | ageingSample
  /-- `AGEING_REPLAN` (R306). Every 1,440 run minutes CC1 computes each domain's loss and raises its ageing offset by one code where needed. -/
  | ageingReplan
  /-- `ECHO` (R280). Ploic ECHO returns its parameter words. -/
  | echo (n : Nat)
  /-- `GET_INFO` (R281). Ploic GET_INFO returns identity, free entries, DEAD banks, run hours and twin state. -/
  | getInfo (n : Nat)
  /-- `FW_INFO` (R281). Ploic FW_INFO returns the Secen version, build and image digest. -/
  | fwInfo (n : Nat)
  /-- `UNDEFINED_COMMAND` (R278). A command with an undefined OPC is accepted at once and answered FORMAT. -/
  | undefinedCommand (n : Nat)
  /-- `REGION_DEFINE` (R39). Ploic REGION_DEFINE defines or replaces a region entry under a lock, mirrored to the twin for twin regions. -/
  | regionDefine (n : Nat)
  /-- `REGION_DELETE` (R39). Ploic REGION_DELETE invalidates a region entry under a lock. -/
  | regionDelete (n : Nat)
  /-- `REGION_CLEAR` (R42). Ploic REGION_CLEAR locks a region and starts blanking its lines in every bank. -/
  | regionClear (n : Nat)
  /-- `REGION_CLEAR_DONE` (R42). When blanking ends, CLEARING and LOCK are cleared and REGION_CLEAR replies OK. -/
  | regionClearDone
  /-- `WINDOW_OPEN` (R187). Ploic WINDOW_OPEN advances a window's generation, opens it and returns GEN. -/
  | windowOpen (n : Nat)
  /-- `WINDOW_CLOSE` (R189). Ploic WINDOW_CLOSE clears OPEN and discards the window's held closing packets. -/
  | windowClose (n : Nat)
  /-- `WINDOW_CLOSE_DONE` (R189). Once PENDING reaches 0, the window entry is invalidated, the region released, and the command answered. -/
  | windowCloseDone
  /-- `CTX_BIND` (R152). Ploic CTX_BIND records a context's counts, keys, routes and epoch, with every counter 0 and every flag clear. -/
  | ctxBind (n : Nat)
  /-- `CTX_UNBIND` (R152). Ploic CTX_UNBIND discards a context's sync state and frees its slot. -/
  | ctxUnbind (n : Nat)
  /-- `RING_DECLARE` (R157). Ploic RING_DECLARE declares or removes a ring on two counters, optionally binding a DREQ line. -/
  | ringDeclare (n : Nat)
  /-- `PWR_ARM` (R266). Ploic PWR_ARM sets the idle timers T1 and T2 and the retain mask. -/
  | pwrArm (n : Nat)
  /-- `PWR_STATE` (R266). Ploic PWR_STATE starts entry to a power state through steps E1 to E6. -/
  | pwrState (n : Nat)
  /-- `PWR_CAP` (R252). Ploic PWR_CAP sets the power cap and the throttling priority of classes. -/
  | pwrCap (n : Nat)
  /-- `PHASE_DEFINE` (R255). Ploic PHASE_DEFINE writes PREF, FLOOR and CEIL of a phase for each domain. -/
  | phaseDefine (n : Nat)
  /-- `PHASE_SET` (R255). Ploic PHASE_SET makes a phase active and replies once the domains reach their targets. -/
  | phaseSet (n : Nat)
  /-- `DOMAIN_LOCK` (R256). Ploic DOMAIN_LOCK locks domains at a shared operating point, or unlocks them. -/
  | domainLock (n : Nat)
  /-- `TEST_RUN` (R282). Ploic TEST_RUN tests the 128 shavings of a logical bank back to back and reports failing words. -/
  | testRun (n : Nat)
  /-- `CHECKER_MODE` (R231). Ploic CHECKER_MODE enables or disables raw checker-space access on CP bulk. -/
  | checkerMode (n : Nat)
  /-- `BANK_RETIRE` (R230). Ploic BANK_RETIRE starts the migration of a logical bank to a free spare. -/
  | bankRetire (n : Nat)
  /-- `TWIN_BIND` (R202). Ploic TWIN_BIND binds or unbinds a twin pair over TP. -/
  | twinBind (n : Nat)
  /-- `TWIN_RESYNC` (R210). Ploic TWIN_RESYNC makes this instance the source, merges dirty maps and starts copying dirty units to the peer. -/
  | twinResync (n : Nat)
  /-- `RESYNC_COMPLETE` (R210). When all dirty units have been copied, both dirty maps are cleared, STATE becomes UP and TWIN_RESYNC replies. -/
  | resyncComplete
  /-- `PORT_FENCE` (R291). Ploic PORT_FENCE cuts a port off, so that its requests are refused FENCED and its outstanding work drains. -/
  | portFence (n : Nat)
  /-- `FENCE_DRAINED` (R291). A fenced port's OUT_R and OUT_A reach 0, and STAT.FENCED reads 1. -/
  | fenceDrained (p : Nat)
  /-- `PORT_UNFENCE` (R293). Ploic PORT_UNFENCE lifts the fence, restores credits after a partition reset and sends UNFENCE. -/
  | portUnfence (n : Nat)
  /-- `RESET_PARTITION` (R294). Ploic RESET_PARTITION fences a port, removes its waits and ranges and resets its chuck, then sets HOLD. -/
  | resetPartition (n : Nat)
  /-- `RESET_SLICE` (R297). Ploic RESET_SLICE runs a recovery of one slice, with recalibration if RECAL is set. -/
  | resetSlice (n : Nat)
  /-- `KEEP_READ` (R284). Ploic KEEP_READ returns up to six keep registers. -/
  | keepRead (n : Nat)
  /-- `KEEP_ERASE` (R284). Ploic KEEP_ERASE clears the named parts of the keep domain. -/
  | keepErase (n : Nat)
  /-- `SLOT_SWAP` (R97). A host write to SLOT.SWAP.REQ sets the pending bit of a group for a swap at an eligible boundary. -/
  | slotSwap (v : Word)
  /-- `SLOT_SHADOW_WRITE` (R97). A host write to a shadow slot table is stored, or ignored with SHD_IGN set while the swap is pending. -/
  | slotShadowWrite (g w : Nat) (v : Word)
  /-- `SLOT_RANK_WRITE` (R99). A host write to SLOT.RANK is checked for 15 distinct ranks and applied at a turn boundary, or ignored. -/
  | slotRankWrite (v : Word)
  /-- `SLOT_FREEZE` (R109). A host write to SLOT.FREEZE freezes or unfreezes bank groups. -/
  | slotFreeze (v : Word)
  /-- `VIEW_HDR_WRITE` (R78). A write to VIEW.HDR commits the header and copies the staged strides into the committed copy. -/
  | viewHdrWrite (e : Nat) (v : Word)
  /-- `VIEW_STRIDE_WRITE` (R78). A write to VIEW.S12 or S34 changes only the staging copy. -/
  | viewStrideWrite (e : Nat) (s34 : Bool) (v : Word)
  /-- `FLUSH` (R133). A write of 1 to VPC_CTL.FLUSH empties the VP line cache. -/
  | flush (p : Nat)
  /-- `ELOG_POP` (R234). A write of 1 to INT.ELOG_CTL.POP removes the oldest error-log entry. -/
  | elogPop
  /-- `BT_ABORT` (R225). A write of PERIOD 0 with ABORT 1 abandons the running shaving. -/
  | btAbort (calEn : Bool)
  /-- `READ_CLEAR` (R9). A host read of an RC field returns its value and clears it. -/
  | readClear (a : HostRead)
  /-- `REGISTER_WRITE` (R331). A host write to any other register takes effect, or is ignored with an error bit, and clears ST bits written 1. -/
  | registerWrite (off : Nat) (v : Word)
  /-- `WS_BYPASS` (R323). Wrapper instruction WS_BYPASS selects the 1-bit bypass register. -/
  | wsBypass
  /-- `WS_EXTEST` (R323). Wrapper instruction WS_EXTEST selects the boundary register for external test. -/
  | wsExtest
  /-- `WS_PRELOAD` (R323). Wrapper instruction WS_PRELOAD loads the boundary register. -/
  | wsPreload (wsi : List Bool)
  /-- `TM_MBIST` (R324). Wrapper instruction TM_MBIST runs March C- on every physical bank and computes a repair image. -/
  | tmMbist (v : Nat)
  /-- `MBIST_COMPLETE` (R324). The March C- run ends, and the done and pass bits are set. -/
  | mbistComplete (rows cols : List SubFail) (whole : List (Nat × Nat × Nat))
  /-- `TM_STATUS` (R323). Wrapper instruction TM_STATUS returns the MBIST done, pass and first failing bank. -/
  | tmStatus
  /-- `TM_REPAIR_RD` (R323). Wrapper instruction TM_REPAIR_RD returns the next entry of the computed repair image. -/
  | tmRepairRd
  /-- `TM_REPAIR_LD` (R323). Wrapper instruction TM_REPAIR_LD applies one soft repair entry. -/
  | tmRepairLd (e : Nat)
  /-- `TM_FUSE_RD` (R323). Wrapper instruction TM_FUSE_RD returns the next fuse word. -/
  | tmFuseRd
  /-- `KEEP_DOMAIN_LOSS` (R25). The keep registers lose their contents when VDD_K itself fails. -/
  | keepDomainLoss
  /-- `PORESET_ASSERT` (R8). Assertion of PORESET_N holds the whole block in cold reset until its release. -/
  | poresetAssert
  /-- `SELF_TEST_DONE` (R268). The boot ROM self-test and clearing finish and BOOT.STAT.STATE moves from RESET to LOAD. -/
  | selfTestDone
  /-- `TWIN_BIND_TIMEOUT` (R202). A TWIN_BIND whose peer has not issued a matching TWIN_BIND within 1,024 turns is answered TWIN. -/
  | twinBindTimeout
  /-- `VF_READY_RELEASE` (R238). The regulator deasserts VF_READY after VF_VREQ falls, which completes the four-phase handshake and permits the next VDD_F step. -/
  | vfReadyRelease
  /-- `RUN_MINUTE` (R302). Each minute with VDD_F up, KEEP.RUN.MINUTES advances by one. -/
  | runMinute
  deriving DecidableEq, Repr

end Sys2Proof
end

