-- ==== Sys2Proof/Decode.lean ====
section
/-! DEFINITION. Words of the opcode table: no row of this table has bits, because the block takes commands and has no
instruction words (log 5). -/
namespace Sys2Proof

/-- The command a word spells by the table's bits: no row gives bits, so no word spells one. -/
def decodeTableWord (_nbits _w : Nat) : Option Instr := none

end Sys2Proof
end

