-- ==== Sys2Proof/Config.lean ====
section
/-! DEFINITION. What the manual leaves open: values without a body, of which nothing can be proved. -/
namespace Sys2Proof.Config

/-- What byte `byte` of the line image of line `ix` of physical bank `pb` holds since power-up number `epoch` of its array
(R41, R232): not defined (log 6). -/
opaque powerUpByte (epoch pb ix byte : Nat) : Byte

/-- Activity counter `i` of domain d at the end of a turn (R247): the manual names some of the events that the 24 counters count, and
not which counts which (log 11). -/
opaque activityCount (take d i : Nat) : Nat

/-- The reference estimate of domain d over a turn from its activity counts, in units of 0.125 W (R247): the manual gives no weights
(log 11). -/
opaque refEstimate (take d : Nat) (counts : List Nat) : Nat

/-- The part estimate of domain d over a turn from its activity counts and its voltage, in units of 0.125 W (R247): the weights and
this part's calibration (log 11). -/
opaque partEstimate (take d : Nat) (counts : List Nat) (code : Nat) : Nat

/-- Whether an estimate in whole units is rounded up where the quotient `num / den` is not whole (R248, R267): the manual gives
the units and no rounding (log 11). -/
opaque roundUp (num den : Nat) : Bool

/-- Program counter of a control core at a read of `CCDBG[k].STAT` (R348): what Secen executes is not in the manual (log 50). -/
opaque corePc (take core : Nat) : BitVec 32

/-- Whether a control core executes or waits for an event at a read of `CCDBG[k].STAT` (R348, log 50). -/
opaque coreRuns (take core : Nat) : Bool

/-- A word of core memory once Secen runs (R348): its own data are not in the manual (log 50). -/
opaque coreWord (take core off : Nat) : Word

/-- `FTIME` at the moment a finding or a fault record is written (R235, Table 13.7): an input the block samples in that cycle
(log 10). -/
opaque ftimeNow (take : Nat) : Word

/-- What the pattern test of an unused spare finds in the power-up that ends PS2 (R222, R264): failing words as line, word and
differing bits (log 15). -/
opaque spareWords (take pos : Nat) : List (Nat × Nat × Nat)

/-- The same for the outer-code fields: line and differing bits (log 15). -/
opaque spareOuter (take pos : Nat) : List (Nat × Nat)

/-- What a keep register holds once `VDD_K` has failed (R25, log 7). -/
opaque keepWord (take i : Nat) : Word

/-- The bit shifted into the bypass register at a `WS_BYPASS`, and bit by bit into the boundary register at a `WS_EXTEST`: `WSI` is an
input that the command table gives no operand (log 22). -/
opaque wsiBits (take : Nat) : List Bool

/-- What the boundary register captures from its signals at a `WS_EXTEST` (R323, log 22). -/
opaque boundarySignals (take : Nat) : List Bool

/-- The fuse word shifted out by `TM_FUSE_RD` after the last of R320 (log 30). -/
opaque fuseAfterLast (take : Nat) : BitVec 32

end Sys2Proof.Config
end

