-- ==== Sys2Proof/Machine/Bits.lean ====
section
/-! DEFINITION. Bit fields of headers, packets and registers, bytes of words (little-endian, §4.5), signed fields
(§0.5), and the sparse tables that hold the block's arrays of state. -/
namespace Sys2Proof.Machine

/-- The unsigned field `[hi:lo]` of a number (§0.5: bit 0 least significant). -/
def fld (w hi lo : Nat) : Nat := (w >>> lo) % 2 ^ (hi + 1 - lo)

/-- Bit i of a number. -/
def bitAt (w i : Nat) : Bool := fld w i i == 1

/-- 1 for true, 0 for false. -/
def b2n (b : Bool) : Nat := if b then 1 else 0

/-- A field of `w` bits read as two's complement. -/
def signedOf (w v : Nat) : Int := if v < 2 ^ (w - 1) then (v : Int) else (v : Int) - (2 ^ w : Nat)

/-- The two's-complement bits, `w` of them, of an integer. -/
def unsignedOf (w : Nat) (v : Int) : Nat := (v % ((2 ^ w : Nat) : Int)).toNat

/-- The word whose bits `[hi:lo]` are 1. -/
def maskOf (hi lo : Nat) : Word := BitVec.ofNat 64 ((2 ^ (hi + 1 - lo) - 1) * 2 ^ lo)

/-- The field `[hi:lo]` of a register word. -/
def wfld (w : Word) (hi lo : Nat) : Nat := fld w.toNat hi lo

/-- A register word with the field `[hi:lo]` set to `v` (its low bits). -/
def wput (w : Word) (hi lo v : Nat) : Word :=
  (w &&& ~~~ maskOf hi lo) ||| (BitVec.ofNat 64 (v * 2 ^ lo) &&& maskOf hi lo)

/-- A field of a register word raised by `n`, saturating at all ones (R112, R142, R166, R183, R211, R236, R267). -/
def wbump (w : Word) (hi lo n : Nat) : Word :=
  wput w hi lo (min (wfld w hi lo + n) (2 ^ (hi + 1 - lo) - 1))

/-- The 2^k-weighted bytes of a number, least significant first (§4.5). -/
def bytesLE : Nat → Nat → List Byte
  | 0, _ => []
  | n + 1, v => BitVec.ofNat 8 (v % 256) :: bytesLE n (v / 256)

/-- The number a little-endian byte list spells. -/
def natLE : List Byte → Nat
  | [] => 0
  | b :: bs => b.toNat + 256 * natLE bs

/-- The number a big-endian byte list spells (the key and signature fields of R270). -/
def natBE (bs : List Byte) : Nat := natLE bs.reverse

/-- How many of the low `n` bits of `v` are 1. -/
def popcount : Nat → Nat → Nat
  | 0, _ => 0
  | n + 1, v => v % 2 + popcount n (v / 2)

/-- Division rounded up. -/
def ceilDiv (a b : Nat) : Nat := (a + b - 1) / b

/-! ## Sparse tables -/

/-- A table of the block's state: keys strictly rising, an unlisted key holds the table's default. -/
abbrev Table (α : Type) := List (Nat × α)

/-- The entry at key k, if listed; the keys rise, so the search ends at the first larger key. -/
def tfind {α : Type} : Table α → Nat → Option α
  | [], _ => none
  | (j, v) :: t, k => if k = j then some v else if k < j then none else tfind t k

/-- The value at key k; `d` where nothing is listed. -/
def tget {α : Type} (d : α) (t : Table α) (k : Nat) : α := (tfind t k).getD d

/-- The table with key k holding v. -/
def tset {α : Type} : Table α → Nat → α → Table α
  | [], k, v => [(k, v)]
  | (j, w) :: t, k, v =>
    if k = j then (k, v) :: t
    else if k < j then (k, v) :: (j, w) :: t
    else (j, w) :: tset t k v

/-- The table with nothing listed at key k. -/
def tdel {α : Type} (t : Table α) (k : Nat) : Table α := t.filter fun e => e.1 != k

/-- The table with nothing listed from key lo up to, not including, key hi. -/
def tclear {α : Type} (t : Table α) (lo hi : Nat) : Table α := t.filter fun e => e.1 < lo || hi ≤ e.1

/-- Keys strictly rising: the canonical form of a table. -/
def trising {α : Type} : Table α → Bool
  | [] => true
  | [_] => true
  | (j, _) :: (k, v) :: t => decide (j < k) && trising ((k, v) :: t)

/-- List element i with every other left alone. -/
def lset {α : Type} (l : List α) (i : Nat) (v : α) : List α := l.set i v

/-- Element i with f applied, every other left alone. -/
def lmod {α : Type} (l : List α) (i : Nat) (f : α → α) : List α := l.modify i f

end Sys2Proof.Machine
end

