-- ==== Sys2Proof/Machine/Codes.lean ====
section
/-! DEFINITION. The inner SEC-DED code and the outer CRC-32C of a line (R212, R213). -/
namespace Sys2Proof.Machine

/-- Numbers of a weight among the first `n`, ascending. -/
def ofWeight (w : Nat) : Nat → List Nat
  | 0 => []
  | n + 1 => ofWeight w n ++ (if popcount 8 n = w then [n] else [])

/-- The check-bit columns of the 64 data bits (R212). -/
def hsiaoCols : List Nat := ofWeight 3 256 ++ (ofWeight 5 256).take 8

/-- XOR of the columns of the data bits that are 1. -/
def hsiaoFold : List Nat → Nat → Nat
  | [], _ => 0
  | c :: cs, d => (if d % 2 = 1 then c else 0) ^^^ hsiaoFold cs (d / 2)

/-- The 8 check bits of a word. -/
def checkBits (d : Nat) : Nat := hsiaoFold hsiaoCols d

/-- What the inner code finds in a word. -/
inductive Inner where
  | clean
  /-- Corrected data, with the syndrome. -/
  | corrected (data syn : Nat)
  | bad (syn : Nat)
  deriving DecidableEq, Repr

/-- Decodes a stored word with its stored check bits (R212). -/
def innerDecode (d c : Nat) : Inner :=
  let s := c ^^^ checkBits d
  if s = 0 then .clean
  else match hsiaoCols.findIdx? (· == s) with
    | some i => .corrected (d ^^^ 2 ^ i) s
    | none => if popcount 8 s = 1 then .corrected d s else .bad s

/-- `n` bits shifted through the reflected CRC-32C register. -/
def crcShift : Nat → Nat → Nat
  | 0, r => r
  | n + 1, r => crcShift n (if r % 2 = 1 then (r / 2) ^^^ 0x82F63B78 else r / 2)

/-- CRC-32C of a message (R213). -/
def crc32c (bs : List Byte) : Nat :=
  (bs.foldl (fun r b => crcShift 8 (r ^^^ b.toNat)) 0xFFFFFFFF) ^^^ 0xFFFFFFFF

/-- The outer code of a line's 128 bytes at a line address (R213). -/
def outerCode (data : List Byte) (la : Nat) : Nat := crc32c (data ++ bytesLE 4 (la % 2 ^ 23))

/-- The check bytes of a line, word by word. -/
def checkBytes : List Byte → Nat → List Byte
  | _, 0 => []
  | bs, n + 1 => BitVec.ofNat 8 (checkBits (natLE (bs.take 8))) :: checkBytes (bs.drop 8) n

/-- A line's finding under the inner code: corrected data, corrected words as (word, syndrome), the first bad word. -/
structure InnerLine where
  data : List Byte
  fixed : List (Nat × Nat)
  bad : Option (Nat × Nat)
  deriving DecidableEq, Repr

/-- Decodes the words of a line from word `w` on (R215 row 3: the lowest-numbered uncorrectable word). -/
def innerLine (w : Nat) : Nat → List Byte → List Byte → InnerLine
  | 0, _, _ => ⟨[], [], none⟩
  | n + 1, bs, cs =>
    let d := natLE (bs.take 8)
    let rest := innerLine (w + 1) n (bs.drop 8) (cs.drop 1)
    match innerDecode d (natLE (cs.take 1)) with
    | .clean => { rest with data := bytesLE 8 d ++ rest.data }
    | .corrected d' s => { rest with data := bytesLE 8 d' ++ rest.data, fixed := (w, s) :: rest.fixed }
    | .bad s => { rest with data := bytesLE 8 d ++ rest.data, bad := some (w, s) }

end Sys2Proof.Machine
end

