-- ==== Sys2Proof/Machine/RegMap.lean ====
section
/-! DEFINITION. The register window (chapter 15): every register of Tables 15.2 to 15.17 with its offset, owner, access
masks and reset value. A bit in no mask is reserved (R9). -/
namespace Sys2Proof.Machine

/-- Who owns a register (§0.5). -/
inductive RegOwner where
  | host | fw | hw
  deriving DecidableEq, Repr

/-- The unit a register belongs to; an absent unit's registers read 0 and ignore writes (R4, R330). -/
inductive RegUnit where
  | always
  /-- Port block `index` (R340). -/
  | port
  /-- Slice `index` (R330). -/
  | slice
  /-- Bank group `index` (R96). -/
  | group
  /-- One bit a bank group (R100). -/
  | groupBits
  /-- Logical bank `index` (R31). -/
  | bank
  /-- Four physical banks a register (R236). -/
  | bankCe
  /-- Belongs to RP (R160, R186). -/
  | rp
  /-- Domain `index` (R267). -/
  | domain
  /-- Sixteen physical banks a register (R344). -/
  | trim
  /-- 3-bit fields of each domain, at 3d and 32 + 3d. -/
  | domOps
  /-- 4-bit fields of each domain. -/
  | domAge
  /-- 3-bit fields of each domain. -/
  | domOp
  /-- 9-bit fields of domains 0 to 6. -/
  | phaseA
  /-- 9-bit fields of domains 7 and 8. -/
  | phaseB
  deriving DecidableEq, Repr

/-- A row of the register map: `count` registers from `base`, `stride` apart. `blocks` is the set of port blocks that
implement the row (0: not a port row). The masks give the RO, RW, ST, RC, WO and W1S bits (Table 0.7). -/
structure RegRow where
  base : Nat
  stride : Nat
  count : Nat
  blocks : Nat
  owner : RegOwner
  unit : RegUnit
  ro : Nat
  rw : Nat
  st : Nat
  rc : Nat
  wo : Nat
  w1s : Nat
  reset : Nat
  deriving DecidableEq, Repr

/-- The registers of the identity and global block (Tables 15.2, 15.3). -/
def regRowsGlobal : List RegRow := [
  ⟨0, 8, 1, 0, .hw, .always, 0xFFFFFFFFFFFFFF00, 0, 0, 0, 0, 0, 0x4A5D7A0303010000⟩,  -- ID.VERSION
  ⟨8, 8, 1, 0, .hw, .always, 0xFFFF1FFF000F, 0, 0, 0, 0, 0, 0⟩,  -- ID.CONFIG
  ⟨0x10, 8, 1, 0, .hw, .always, 0x7FFF, 0, 0, 0, 0, 0, 0⟩,  -- ID.INSTANCE
  ⟨0x18, 8, 1, 0, .hw, .always, 0x3FFF00000007, 0, 0, 0, 0, 0, 0⟩,  -- ID.FUSE
  ⟨0x1000, 8, 1, 0, .hw, .always, 0xF0000, 0, 0x107, 0, 0, 0, 0⟩,  -- GLB.ERR
  ⟨0x1010, 8, 1, 0, .hw, .always, 0xF, 0, 0, 0, 0, 0, 0⟩,  -- GLB.IRQ_LINE
  ⟨0x1018, 8, 1, 0, .hw, .always, 0x1FFFFFFF, 0, 0, 0, 0, 0, 0⟩,  -- GLB.IRQ_PEND
  ⟨0x1020, 8, 1, 0, .host, .always, 0, 0xF, 0, 0, 0, 0, 0⟩,  -- GLB.IRQ_FORCE
  ⟨0x1100, 8, 1, 0, .host, .always, 0, 0x107, 0, 0, 0, 0, 0x100⟩,  -- GLB.IEN[0]
  ⟨0x1108, 8, 1, 0, .host, .always, 0, 0x8000010100000000, 0, 0, 0, 0, 0⟩,  -- GLB.IEN[1]
  ⟨0x1110, 8, 1, 0, .host, .always, 0, 0x1FFF, 0, 0, 0, 0, 0⟩,  -- GLB.IEN[2]
  ⟨0x1118, 8, 1, 0, .host, .always, 0, 0xFFFFFFFFFFFFFFFF, 0, 0, 0, 0, 0⟩,  -- GLB.IEN[3]
  ⟨0x1120, 8, 1, 0, .host, .always, 0, 0x3FFFFFF, 0, 0, 0, 0, 0⟩,  -- GLB.IEN[4]
  ⟨0x1128, 8, 1, 0, .host, .always, 0, 7, 0, 0, 0, 0, 0⟩,  -- GLB.IEN[5]
  ⟨0x1130, 8, 1, 0, .host, .always, 0, 1, 0, 0, 0, 0, 0⟩,  -- GLB.IEN[6]
  ⟨0x1138, 8, 1, 0, .host, .always, 0, 0xF, 0, 0, 0, 0, 0⟩,  -- GLB.IEN[7]
  ⟨0x1140, 8, 1, 0, .host, .always, 0, 7, 0, 0, 0, 0, 0⟩,  -- GLB.IEN[8]
  ⟨0x1148, 8, 1, 0, .host, .always, 0, 0x3F, 0, 0, 0, 0, 0⟩,  -- GLB.IEN[9]
  ⟨0x1150, 8, 1, 0, .host, .always, 0, 7, 0, 0, 0, 0, 0⟩,  -- GLB.IEN[10]
  ⟨0x1158, 8, 1, 0, .host, .always, 0, 0x3FFF, 0, 0, 0, 0, 0⟩,  -- GLB.IEN[11]
  ⟨0x1160, 8, 1, 0, .host, .always, 0, 0x7FD, 0, 0, 0, 0, 0⟩,  -- GLB.IEN[12]
  ⟨0x1168, 8, 1, 0, .host, .always, 0, 0x101FF, 0, 0, 0, 0, 0⟩,  -- GLB.IEN[13]
  ⟨0x1170, 8, 1, 0, .host, .always, 0, 0, 0, 0, 0, 0, 0⟩,  -- GLB.IEN[14]
  ⟨0x1178, 8, 1, 0, .host, .always, 0, 0, 0, 0, 0, 0, 0⟩,  -- GLB.IEN[15]
  ⟨0x1180, 8, 13, 0, .host, .always, 0, 0x1F, 0, 0, 0, 0, 0⟩,  -- GLB.IEN[16+p]
  ⟨0x1200, 8, 1, 0, .host, .always, 0, 0, 0, 0, 1, 0, 0⟩,  -- BOOT.CTL
  ⟨0x1208, 8, 1, 0, .fw, .always, 0xFF0000000000FFFF, 0, 0, 0, 0, 0, 0⟩,  -- BOOT.STAT
  ⟨0x1220, 8, 1, 0, .host, .always, 0, 0xFFFFFFFF, 0, 0, 0, 0, 0⟩,  -- CMD.POSTED
  ⟨0x1228, 8, 1, 0, .fw, .always, 0xFFFFFFFF, 0, 0, 0, 0, 0, 0⟩,  -- CMD.DONE
  ⟨0x1230, 8, 1, 0, .hw, .always, 0x7F00000000, 0, 7, 0, 0, 0, 0⟩,  -- CMD.STAT
  ⟨0x1240, 8, 4, 0, .fw, .always, 0xFFFFFFFF, 0, 0, 0, 0, 0, 0⟩,  -- CC.HB[k]
  ⟨0x1300, 8, 1, 0, .host, .always, 0, 0x1FFFF, 0, 0, 0, 0, 0x11000⟩,  -- GLB.HANG_CFG
  ⟨0x1308, 8, 1, 0, .hw, .always, 0, 0, 0x1FFF, 0, 0, 0, 0⟩,  -- GLB.HANG_PORTS
  ⟨0x1310, 8, 1, 0, .hw, .always, 0, 0, 0xFFFFFFFFFFFFFFFF, 0, 0, 0, 0⟩,  -- GLB.HANG_SLOTS
  ⟨0x1318, 8, 1, 0, .hw, .always, 0x7FFFFF1FFFFFFFFF, 0, 0x8000000000000000, 0, 0, 0, 0⟩,  -- GLB.HANG_CTX
  ⟨0x1320, 8, 1, 0, .host, .always, 0, 3, 0, 0, 0, 0, 3⟩,  -- RST.CFG
  ⟨0x1328, 8, 1, 0, .fw, .always, 0xFFFFFFFF0000FFFF, 0, 0, 0, 0, 0, 0⟩,  -- RST.STAT
  ⟨0x1330, 8, 1, 0, .hw, .always, 0, 0, 0x3FFFFFF, 0, 0, 0, 0⟩,  -- RST.FAULT
  ⟨0x1400, 8, 1, 0, .hw, .always, 0x80000000000001FF, 0, 0x10100000000, 0, 0, 0, 0⟩ ]  -- GLB.TRIP

/-- The registers of the port blocks (Table 15.7). -/
def regRowsPort : List RegRow := [
  ⟨0x2000, 0x100, 13, 0x13FF, .host, .port, 0, 0xFF, 0, 0, 0, 0, 0x10⟩,  -- PORT[p].CFG
  ⟨0x2008, 0x100, 13, 0x13FF, .hw, .port, 0, 0, 0xF, 0, 0, 0, 0⟩,  -- PORT[p].ERR
  ⟨0x2008, 0x100, 13, 0x400, .hw, .port, 0, 0, 0x11, 0, 0, 0, 0⟩,  -- PORT[p].ERR (RP)
  ⟨0x2008, 0x100, 13, 0x800, .hw, .port, 0, 0, 1, 0, 0, 0, 0⟩,  -- PORT[p].ERR (TP)
  ⟨0x2010, 0x100, 13, 0x1FFF, .hw, .port, 0xFFFFFFFF, 0, 0, 0, 0, 0, 0⟩,  -- PORT[p].CREDIT
  ⟨0x2018, 0x100, 13, 0x1FFF, .hw, .port, 0x1FFFFFFFF, 0, 0, 0, 0, 0, 0⟩,  -- PORT[p].STAT
  ⟨0x2020, 0x100, 13, 0xF, .host, .port, 0, 0x3F, 0, 0, 0, 0, 0xC⟩,  -- PORT[p].ARB (MP)
  ⟨0x2020, 0x100, 13, 0xF0, .host, .port, 0, 0x3F, 0, 0, 0, 0, 6⟩,  -- PORT[p].ARB (VP)
  ⟨0x2020, 0x100, 13, 0xF00, .host, .port, 0, 0x3F, 0, 0, 0, 0, 4⟩,  -- PORT[p].ARB (DP/RP/TP)
  ⟨0x2020, 0x100, 13, 0x1000, .host, .port, 0, 0x3F, 0, 0, 0, 0, 2⟩,  -- PORT[p].ARB (CP)
  ⟨0x2028, 0x100, 13, 0x1FFF, .hw, .port, 0, 0, 0, 0xFFFFFFFFFFFF, 0, 0, 0⟩,  -- PORT[p].CONF_LOST
  ⟨0x2030, 0x100, 13, 0x1FFF, .hw, .port, 0, 0, 0, 0xFFFFFFFFFFFF, 0, 0, 0⟩,  -- PORT[p].CONF_WAIT
  ⟨0x2038, 0x100, 13, 0x1FFF, .hw, .port, 0, 0, 0, 0xFFFFFFFF, 0, 0, 0⟩,  -- PORT[p].CONF_MAXW
  ⟨0x2040, 0x100, 13, 0x1FFF, .hw, .port, 0, 0, 0, 0xFFFFFFFFFFFF, 0, 0, 0⟩,  -- PORT[p].CONF_COMB
  ⟨0x2048, 0x100, 13, 0x1FFF, .hw, .port, 0, 0, 0, 0xFFFFFFFFFFFF, 0, 0, 0⟩,  -- PORT[p].CONF_BP
  ⟨0x2050, 0x100, 13, 0x13FF, .hw, .port, 0, 0, 0, 0xFFFFFFFFFFFF, 0, 0, 0⟩,  -- PORT[p].SB_HOLD
  ⟨0x2058, 0x100, 13, 0xF, .hw, .port, 0, 0, 0, 0xFFFFFFFFFFFF, 0, 0, 0⟩,  -- PORT[p].STRM_SQ
  ⟨0x2060, 0x100, 13, 0xF0, .host, .port, 0, 2, 0, 0, 1, 0, 0⟩,  -- PORT[p].VPC_CTL
  ⟨0x2068, 0x100, 13, 0xF0, .hw, .port, 0, 0, 0, 0xFFFFFFFFFFFF, 0, 0, 0⟩,  -- PORT[p].VPC_HIT
  ⟨0x2070, 0x100, 13, 0xF0, .hw, .port, 0, 0, 0, 0xFFFFFFFFFFFF, 0, 0, 0⟩,  -- PORT[p].VPC_MISS
  ⟨0x2078, 0x100, 13, 0xF, .hw, .port, 0xBF0003FF07FFFFFF, 0, 0, 0, 0, 0, 0⟩,  -- PORT[p].STRM[0]
  ⟨0x2080, 0x100, 13, 0xF, .hw, .port, 0xBF0003FF07FFFFFF, 0, 0, 0, 0, 0, 0⟩,  -- PORT[p].STRM[1]
  ⟨0x2088, 0x100, 13, 0xF, .hw, .port, 0xBF0003FF07FFFFFF, 0, 0, 0, 0, 0, 0⟩,  -- PORT[p].STRM[2]
  ⟨0x2090, 0x100, 13, 0xF, .hw, .port, 0xBF0003FF07FFFFFF, 0, 0, 0, 0, 0, 0⟩,  -- PORT[p].STRM[3]
  ⟨0x20A0, 0x100, 13, 0xFFF, .host, .port, 0, 0xF, 0, 0, 0, 0, 9⟩,  -- PORT[p].RAMP
  ⟨0x20A0, 0x100, 13, 0x1000, .host, .port, 0, 7, 0, 0, 0, 0, 1⟩,  -- PORT[p].RAMP (CP)
  ⟨0x20A8, 0x100, 13, 0xFFF, .hw, .port, 0x7F000000000000, 0, 0, 0xFFFFFFFFFFFF, 0, 0, 0x8000000000000⟩,  -- PORT[p].RAMP_STAT
  ⟨0x20B0, 0x100, 13, 0xFFF, .host, .port, 0, 3, 0, 0, 0, 0, 0⟩,  -- PORT[p].HANGCFG
  ⟨0x20B8, 0x100, 13, 0x1FFF, .hw, .port, 0xF80000000000FFFF, 0, 0, 0, 0, 0, 0⟩ ]  -- PORT[p].PROG

/-- The registers of the slot, region and view tables (Tables 15.8, 15.9). -/
def regRowsTable : List RegRow := [
  ⟨0x4000, 0x20, 32, 0, .hw, .group, 0xFFFFFFFFFFFFFFFF, 0, 0, 0, 0, 0, 0xFFFFFFFFFFFFFFFF⟩,  -- SLOT.ACT[g].W[0]
  ⟨0x4008, 0x20, 32, 0, .hw, .group, 0xFFFFFFFFFFFFFFFF, 0, 0, 0, 0, 0, 0xFFFFFFFFFFFFFFFF⟩,  -- SLOT.ACT[g].W[1]
  ⟨0x4010, 0x20, 32, 0, .hw, .group, 0xFFFFFFFFFFFFFFFF, 0, 0, 0, 0, 0, 0xFFFFFFFFFFFFFFFF⟩,  -- SLOT.ACT[g].W[2]
  ⟨0x4018, 0x20, 32, 0, .hw, .group, 0xFFFFFFFFFFFFFFFF, 0, 0, 0, 0, 0, 0xEFFFFFFFFFFFFFFF⟩,  -- SLOT.ACT[g].W[3]
  ⟨0x4400, 0x20, 32, 0, .host, .group, 0, 0xFFFFFFFFFFFFFFFF, 0, 0, 0, 0, 0xFFFFFFFFFFFFFFFF⟩,  -- SLOT.SHD[g].W[0]
  ⟨0x4408, 0x20, 32, 0, .host, .group, 0, 0xFFFFFFFFFFFFFFFF, 0, 0, 0, 0, 0xFFFFFFFFFFFFFFFF⟩,  -- SLOT.SHD[g].W[1]
  ⟨0x4410, 0x20, 32, 0, .host, .group, 0, 0xFFFFFFFFFFFFFFFF, 0, 0, 0, 0, 0xFFFFFFFFFFFFFFFF⟩,  -- SLOT.SHD[g].W[2]
  ⟨0x4418, 0x20, 32, 0, .host, .group, 0, 0xFFFFFFFFFFFFFFFF, 0, 0, 0, 0, 0xEFFFFFFFFFFFFFFF⟩,  -- SLOT.SHD[g].W[3]
  ⟨0x4800, 8, 1, 0, .host, .groupBits, 0, 0, 0, 0, 0, 0xFFFFFFFF, 0⟩,  -- SLOT.SWAP
  ⟨0x4808, 8, 1, 0, .host, .groupBits, 0, 0xFFFFFFFF, 0, 0, 0, 0, 0⟩,  -- SLOT.FREEZE
  ⟨0x4810, 8, 1, 0, .fw, .groupBits, 0xFFFFFFFF, 0, 0, 0, 0, 0, 0⟩,  -- SLOT.FRZ_FW
  ⟨0x4818, 8, 1, 0, .hw, .groupBits, 0xFFFFFFFF, 0, 0, 0, 0, 0, 0⟩,  -- SLOT.DRAINED
  ⟨0x4820, 8, 1, 0, .host, .always, 0, 0xFFFFFFFFFFFFFFF, 0, 0, 0, 0, 0xEDC45BA98763210⟩,  -- SLOT.RANK
  ⟨0x4828, 8, 1, 0, .hw, .always, 0xFFFFFFFFFFFFFFFF, 0, 0, 0, 0, 0, 0⟩,  -- SLOT.TIME
  ⟨0x4830, 8, 1, 0, .hw, .always, 0, 0, 1, 0, 0, 0, 0⟩,  -- SLOT.STAT
  ⟨0x4900, 8, 32, 0, .hw, .group, 0x7F, 0, 0, 0x7F00, 0, 0, 0⟩,  -- SLOT.GRP[g]
  ⟨0x6000, 0x20, 256, 0, .fw, .always, 0xE0007FFF00003FFF, 0, 0, 0, 0, 0, 0⟩,  -- RGN[n].SPAN
  ⟨0x6008, 0x20, 256, 0, .fw, .always, 0x1FFF0007FFFF03FF, 0, 0, 0, 0, 0, 0⟩,  -- RGN[n].ATTR
  ⟨0x6010, 0x20, 256, 0, .fw, .always, 0x3FFFFFFFFFFF, 0, 0, 0, 0, 0, 0⟩,  -- RGN[n].AUX
  ⟨0x6018, 0x20, 256, 0, .hw, .always, 0xFFFF, 0, 0, 0, 0, 0, 0⟩,  -- RGN[n].STATE
  ⟨0x8000, 0x20, 1024, 0, .host, .always, 0, 0xF0FFFFFFFFFFFFFF, 0, 0, 0, 0, 0x1000000000000000⟩,  -- VIEW[v].HDR
  ⟨0x8008, 0x20, 1024, 0, .host, .always, 0, 0xFFFFFFF0FFFFFFF, 0, 0, 0, 0, 0⟩,  -- VIEW[v].S12
  ⟨0x8010, 0x20, 1024, 0, .host, .always, 0, 0xFFFFFFF0FFFFFFF, 0, 0, 0, 0, 0⟩,  -- VIEW[v].S34
  ⟨0x8018, 0x20, 1024, 0, .hw, .always, 0, 0, 0, 0, 0, 0, 0⟩ ]  -- VIEW[v] reserved

/-- The registers of the sync, accumulate, scoreboard, remote and twin (Tables 15.10, 15.11). -/
def regRowsSync : List RegRow := [
  ⟨0x10000, 0x20, 64, 0, .fw, .always, 0xC3FF0000FFFFFFFF, 0, 0, 0, 0, 0, 0⟩,  -- CTXT[s].TAG
  ⟨0x10008, 0x20, 64, 0, .fw, .always, 0xFFF1FFF7FFF, 0, 0, 0, 0, 0, 0⟩,  -- CTXT[s].CNT
  ⟨0x10010, 0x20, 64, 0, .fw, .always, 0x3FFF7FFF1FFF, 0, 0, 0, 0, 0, 0⟩,  -- CTXT[s].FLG
  ⟨0x10018, 0x20, 64, 0, .fw, .always, 0xFFFF0000FFFFFFFF, 0, 0, 0, 0, 0, 0⟩,  -- CTXT[s].KEYS
  ⟨0x10800, 8, 128, 0, .host, .rp, 0, 0xFFFFFFFFFFF0FFFF, 0, 0, 0, 0, 0⟩,  -- SYNC.ROUTE[r]
  ⟨0x10C00, 8, 64, 0, .fw, .always, 0xFFFFFFFFFFFFFFFF, 0, 0, 0, 0, 0, 0⟩,  -- SYNC.RING[k]
  ⟨0x10E00, 8, 1, 0, .host, .always, 0, 0x7FF00000001, 0, 0, 0, 0, 0x3E800000000⟩,  -- SYNC.CFG
  ⟨0x10E08, 8, 1, 0, .host, .always, 0, 0xFFFFFFFFFF, 0, 0, 0, 0, 0xB45A230C03⟩,  -- SYNC.DLAT
  ⟨0x10E10, 8, 1, 0, .hw, .always, 0, 0, 0xF, 0, 0, 0, 0⟩,  -- SYNC.ERR
  ⟨0x10E18, 8, 1, 0, .hw, .always, 0x3FF0FFF007F, 0, 0, 0x3FF000000000000, 0, 0, 0⟩,  -- SYNC.STAT
  ⟨0x10E20, 8, 1, 0, .hw, .always, 0, 0, 0, 0xFFFFFFFF, 0, 0, 0⟩,  -- SYNC.MISS
  ⟨0x10E28, 8, 1, 0, .hw, .always, 0, 0, 0, 0xFFFFFFFF, 0, 0, 0⟩,  -- SYNC.EVICT
  ⟨0x10E30, 8, 1, 0, .hw, .always, 0, 0, 0, 0xFFFFFFFF, 0, 0, 0⟩,  -- SYNC.MISS_RETRY
  ⟨0x10E38, 8, 1, 0, .hw, .always, 0, 0, 0, 0xFFFFFFFFFFFFFFFF, 0, 0, 0⟩,  -- SYNC.LATE
  ⟨0x10E40, 8, 1, 0, .hw, .always, 0, 0, 0, 0xFFFFFFFF, 0, 0, 0⟩,  -- SYNC.MIS
  ⟨0x10E48, 8, 1, 0, .hw, .always, 0xFFFFFFF7FFF, 0, 0, 0, 0, 0, 0⟩,  -- SYNC.MIS_LAST
  ⟨0x10E50, 8, 1, 0, .hw, .always, 0, 0, 0, 0xFFFFFFFF, 0, 0, 0⟩,  -- SYNC.HOLD
  ⟨0x10E58, 8, 1, 0, .hw, .always, 0, 0, 0, 0xFFFFFFFF, 0, 0, 0⟩,  -- SYNC.WQFULL
  ⟨0x10E60, 8, 1, 0, .hw, .always, 0xFFFFFFFFFFFFFFFF, 0, 0, 0, 0, 0, 0⟩,  -- SYNC.FTIME
  ⟨0x10F00, 8, 1, 0, .hw, .always, 0, 0, 7, 0, 0, 0, 0⟩,  -- ACC.ERR
  ⟨0x10F08, 8, 4, 0, .hw, .always, 0, 0, 0xFFFFFFFFFFFFFFFF, 0, 0, 0, 0⟩,  -- ACC.OVF[w]
  ⟨0x10F28, 8, 1, 0, .host, .always, 0, 0xFF, 0, 0, 0, 0, 0⟩,  -- ACC.FILT_SEL
  ⟨0x10F30, 8, 1, 0, .hw, .always, 0x83FFFFFF07FF07FF, 0, 0, 0, 0, 0, 0⟩,  -- ACC.FILT_VIEW
  ⟨0x10F38, 8, 1, 0, .hw, .always, 0, 0, 0, 0xFFFFFFFF, 0, 0, 0⟩,  -- ACC.FULL
  ⟨0x10F40, 8, 1, 0, .hw, .always, 0, 0, 0, 0xFFFFFFFFFFFF, 0, 0, 0⟩,  -- ACC.FILTERED
  ⟨0x10F48, 8, 1, 0, .hw, .always, 0, 0, 0, 0xFFFFFFFFFFFF, 0, 0, 0⟩,  -- ACC.LOST
  ⟨0x11000, 8, 256, 0, .hw, .always, 0xFFFE3FFFFFFFFFFF, 0, 0, 0, 0, 0, 0⟩,  -- SB.ENT[i]
  ⟨0x11800, 8, 1, 0, .hw, .always, 0x1FF, 0, 0, 0x1FF0000, 0, 0, 0⟩,  -- SB.STAT
  ⟨0x11808, 8, 1, 0, .hw, .always, 0, 0, 0, 0xFFFFFFFF, 0, 0, 0⟩,  -- SB.ABORTS
  ⟨0x11810, 8, 1, 0, .hw, .always, 0xFFF3FF00007FFFFF, 0, 0, 0, 0, 0, 0⟩,  -- SB.ALAST
  ⟨0x11818, 8, 1, 0, .hw, .always, 0, 0, 0, 0xFFFFFFFF, 0, 0, 0⟩,  -- SB.FULL
  ⟨0x12000, 0x10, 256, 0, .fw, .rp, 0xC3FFFFFF7FFF3FFF, 0, 0, 0, 0, 0, 0⟩,  -- WIN[w].CFG
  ⟨0x12008, 0x10, 256, 0, .fw, .rp, 0xFFFF7FFF7FFF, 0, 0, 0, 0, 0, 0⟩,  -- WIN[w].SND
  ⟨0x13000, 8, 1, 0, .host, .always, 0, 0xFFFF0000FFFF, 0, 0, 0, 0, 0x20000000400⟩,  -- RMT.CFG
  ⟨0x13008, 8, 1, 0, .hw, .always, 0, 0, 0x3F, 0, 0, 0, 0⟩,  -- RMT.ERR
  ⟨0x13010, 8, 1, 0, .hw, .always, 0x7FFFFF0000000000, 0, 0, 0xFFFFFFFF, 0, 0, 0⟩,  -- RMT.LATE_RX
  ⟨0x13018, 8, 1, 0, .hw, .always, 0xF00000000, 0, 0, 0xFFFFFFFF, 0, 0, 0⟩,  -- RMT.REFUSED
  ⟨0x13020, 8, 1, 0, .hw, .always, 0x1FF000003FF, 0, 0, 0x3FF0000, 0, 0, 0⟩,  -- RMT.STAT
  ⟨0x13028, 8, 1, 0, .hw, .always, 0, 0, 0, 0xFFFFFFFF, 0, 0, 0⟩,  -- RMT.RESEND
  ⟨0x13040, 8, 1, 0, .host, .always, 0, 0xFFFF0001, 0, 0, 0, 0, 0x400000⟩,  -- TWIN.CFG
  ⟨0x13048, 8, 1, 0, .fw, .always, 0xC0007FFF00007FFF, 0, 0, 0, 0, 0, 0⟩,  -- TWIN.STAT
  ⟨0x13050, 8, 1, 0, .hw, .always, 0, 0, 7, 0, 0, 0, 0⟩,  -- TWIN.ERR
  ⟨0x13058, 8, 1, 0, .hw, .always, 0, 0, 0, 0xFFFFFFFFFFFFFFFF, 0, 0, 0⟩,  -- TWIN.REPAIR
  ⟨0x13060, 8, 1, 0, .hw, .always, 0x7FF, 0, 0, 0xFFFFFFFF0000, 0, 0, 0⟩ ]  -- TWIN.OUT

/-- The registers of the integrity, power, background test, keep, windows, debug (Tables 15.12 to 15.17). -/
def regRowsRest : List RegRow := [
  ⟨0x14000, 8, 1, 0, .host, .always, 0, 0x2FF, 0, 0, 0, 0, 0x208⟩,  -- INT.CFG
  ⟨0x14008, 8, 1, 0, .hw, .always, 0, 0, 0x3FFF, 0, 0, 0, 0⟩,  -- INT.ERR
  ⟨0x14010, 8, 1, 0, .fw, .always, 1, 0, 0, 0, 0, 0, 0⟩,  -- INT.CHK
  ⟨0x14018, 8, 1, 0, .host, .always, 0, 0, 0, 0, 1, 0, 0⟩,  -- INT.ELOG_CTL
  ⟨0x14020, 8, 1, 0, .hw, .always, 0xFFFFFFFFFFF0FFFF, 0, 0, 0, 0, 0, 0⟩,  -- INT.ELOG_W0
  ⟨0x14028, 8, 1, 0, .hw, .always, 0xFFFFFFFFFFFFFFFF, 0, 0, 0, 0, 0, 0⟩,  -- INT.ELOG_W1
  ⟨0x14030, 8, 1, 0, .hw, .always, 0x7F, 0, 0, 0xFFFFFFFF00000000, 0, 0, 0⟩,  -- INT.ELOG_STAT
  ⟨0x14038, 8, 1, 0, .hw, .always, 0x7FFFFFFFFFF0FFFF, 0, 0x8000000000000000, 0, 0, 0, 0⟩,  -- INT.FIRST_W0
  ⟨0x14040, 8, 1, 0, .hw, .always, 0xFFFFFFFFFFFFFFFF, 0, 0, 0, 0, 0, 0⟩,  -- INT.FIRST_W1
  ⟨0x14048, 8, 8, 0, .hw, .slice, 0, 0, 0, 0xFFFFFFFFFFFF, 0, 0, 0⟩,  -- INT.UE[s]
  ⟨0x14088, 8, 8, 0, .hw, .slice, 0, 0, 0, 0xFFFFFFFFFFFF, 0, 0, 0⟩,  -- INT.CE[s]
  ⟨0x140C8, 8, 8, 0, .fw, .slice, 0xF0007FFF01FF01FF, 0, 0, 0, 0, 0, 0⟩,  -- INT.SPARE[s]
  ⟨0x14108, 8, 8, 0, .fw, .slice, 0xFFFFFFFFFFFFFFFF, 0, 0, 0, 0, 0, 0⟩,  -- INT.RETIRED[s]
  ⟨0x14800, 8, 512, 0, .fw, .bank, 0x37F7F, 0, 0, 0, 0, 0, 0⟩,  -- INT.REMAP[LB]
  ⟨0x15800, 8, 132, 0, .hw, .bankCe, 0, 0, 0, 0xFFFFFFFFFFFFFFFF, 0, 0, 0⟩,  -- INT.BANKCE[j]
  ⟨0x17000, 8, 1, 0, .host, .always, 0, 0x3FFFF, 0, 0, 0, 0, 0x10010⟩,  -- BT.CFG
  ⟨0x17008, 8, 1, 0, .hw, .groupBits, 0xFFFFFFFF, 0, 0, 0, 0, 0, 0⟩,  -- BT.NOSLOT
  ⟨0x17010, 8, 8, 0, .hw, .slice, 0xFFFFC000FFFFFFFF, 0, 0, 0x3FFF00000000, 0, 0, 0⟩,  -- BT.SL[s]
  ⟨0x17050, 0x38, 8, 0, .hw, .slice, 0xFFFFFFFFFFFFFFF, 0, 0, 0, 0, 0, 0⟩,  -- BT.FW[s][0]
  ⟨0x17058, 0x38, 8, 0, .hw, .slice, 0xFFFFFFFFFFFFFFF, 0, 0, 0, 0, 0, 0⟩,  -- BT.FW[s][1]
  ⟨0x17060, 0x38, 8, 0, .hw, .slice, 0xFFFFFFFFFFFFFFF, 0, 0, 0, 0, 0, 0⟩,  -- BT.FW[s][2]
  ⟨0x17068, 0x38, 8, 0, .hw, .slice, 0xFFFFFFFFFFFFFFF, 0, 0, 0, 0, 0, 0⟩,  -- BT.FW[s][3]
  ⟨0x17070, 0x38, 8, 0, .hw, .slice, 0xFFFFFFFFFFFFFFF, 0, 0, 0, 0, 0, 0⟩,  -- BT.FW[s][4]
  ⟨0x17078, 0x38, 8, 0, .hw, .slice, 0xFFFFFFFFFFFFFFF, 0, 0, 0, 0, 0, 0⟩,  -- BT.FW[s][5]
  ⟨0x17080, 0x38, 8, 0, .hw, .slice, 0xFFFFFF, 0, 0, 0, 0, 0, 0⟩,  -- BT.FW[s][6]
  ⟨0x17300, 8, 33, 0, .fw, .trim, 0xFFFFFFFFFFFFFFFF, 0, 0, 0, 0, 0, 0x8888888888888888⟩,  -- BT.TRIM[k]
  ⟨0x16000, 8, 1, 0, .host, .always, 0, 0xFF00FFFF00FFFF00, 0, 0, 0, 0, 0x5000002000690600⟩,  -- PWR.CFG
  ⟨0x16008, 8, 1, 0, .fw, .always, 0x3FFFFFF, 0, 0, 0, 0, 0, 0x2C68896⟩,  -- PWR.CAP
  ⟨0x16010, 8, 1, 0, .host, .always, 0, 0x3FF03FF03FF, 0, 0, 0, 0, 0x1800B40118⟩,  -- PWR.ILIM
  ⟨0x16018, 8, 1, 0, .hw, .always, 0xFC0FFF0000000000, 0, 0, 0, 0, 0, 0⟩,  -- PWR.STAT
  ⟨0x16020, 8, 1, 0, .hw, .domOps, 0x7FFFFFF07FFFFFF, 0, 0, 0, 0, 0, 0x5B6DB6D05B6DB6D⟩,  -- PWR.OPS
  ⟨0x16028, 8, 1, 0, .fw, .always, 0x701FF, 0, 0, 0, 0, 0, 0⟩,  -- PWR.LOCK
  ⟨0x16030, 8, 1, 0, .hw, .always, 0xFFFFFFFFFFFFFFFF, 0, 0, 0, 0, 0, 0x48403C3630282018⟩,  -- PWR.VTAB_F
  ⟨0x16038, 8, 1, 0, .hw, .always, 0xFFFFFFFFFFFFFFFF, 0, 0, 0, 0, 0, 0x48403C3630282018⟩,  -- PWR.VTAB_S
  ⟨0x16040, 8, 1, 0, .fw, .domAge, 0xFFFFFFFFF, 0, 0, 0, 0, 0, 0⟩,  -- PWR.AGE
  ⟨0x16048, 8, 1, 0, .hw, .domOp, 0x7FFFFFF, 0, 0, 0, 0, 0, 0x7FFFFFF⟩,  -- PWR.OPAVAIL
  ⟨0x16050, 8, 1, 0, .hw, .always, 0xFFFF0000FFFF, 0, 0, 0, 0, 0, 0⟩,  -- PWR.EST
  ⟨0x16058, 8, 9, 0, .hw, .domain, 0xFFFFFFFF0000FFFF, 0, 0, 0, 0, 0, 0⟩,  -- PWR.DOM[d]
  ⟨0x160A0, 8, 1, 0, .hw, .always, 0xFFFF00, 0, 0, 0, 0, 0, 0⟩,  -- PWR.GATE
  ⟨0x160A8, 8, 1, 0, .hw, .always, 0, 0, 0x7FD, 0, 0, 0, 0⟩,  -- PWR.NOTE
  ⟨0x160B0, 8, 1, 0, .fw, .always, 0xFFFFFFFFFF, 0, 0, 0, 0, 0, 0⟩,  -- PWR.ARM
  ⟨0x160B8, 8, 1, 0, .hw, .always, 0xFFFFFFFF, 0, 0, 0, 0, 0, 0⟩,  -- PWR.IDLE
  ⟨0x160C0, 8, 1, 0, .hw, .always, 0, 0, 0, 0xFFFFFFFF, 0, 0, 0⟩,  -- PWR.ABORTS
  ⟨0x160C8, 8, 1, 0, .hw, .always, 0, 0, 0, 0xFFFFFFFF, 0, 0, 0⟩,  -- PWR.VAR
  ⟨0x160D0, 8, 1, 0, .hw, .always, 0, 0, 0, 0x1FFFFFFFFFFFFFF, 0, 0, 0⟩,  -- PWR.DROOP
  ⟨0x16100, 8, 9, 0, .hw, .domain, 0xFF00000000FF, 0, 0, 0, 0, 0, 0⟩,  -- AGEMON[d]
  ⟨0x16148, 8, 1, 0, .hw, .always, 0, 0, 0x101FF, 0, 0, 0, 0⟩,  -- AGEMON.NOTE
  ⟨0x16200, 0x10, 16, 0, .fw, .phaseA, 0x7FFFFFFFFFFFFFFF, 0, 0, 0, 0, 0, 0x5B6DB6DB6DB6DB6D⟩,  -- PWR.PHASE[k].A
  ⟨0x16208, 0x10, 16, 0, .fw, .phaseB, 0x3FFFF, 0, 0, 0, 0, 0, 0x2DB6D⟩,  -- PWR.PHASE[k].B
  ⟨0x18000, 8, 1, 0, .fw, .always, 0xFFFFFFFFFFFFFFFF, 0, 0, 0, 0, 0, 0⟩,  -- KEEP.HDR
  ⟨0x18008, 0x10, 8, 0, .fw, .always, 0xFFFFFFFFFFFFFFFF, 0, 0, 0, 0, 0, 0⟩,  -- KEEP.DEAD[s]
  ⟨0x18010, 0x10, 8, 0, .fw, .always, 0xF0003F3F000000FF, 0, 0, 0, 0, 0, 0⟩,  -- KEEP.SPARE[s]
  ⟨0x18088, 8, 1, 0, .fw, .always, 0xFF0FFFFFFFFF, 0, 0, 0, 0, 0, 0⟩,  -- KEEP.AGE
  ⟨0x18090, 8, 9, 0, .fw, .always, 0xFFFFFF000000FF, 0, 0, 0, 0, 0, 0⟩,  -- KEEP.MARGIN[d]
  ⟨0x180D8, 8, 1, 0, .fw, .always, 0xFFFFFFFFFFFFFFFF, 0, 0, 0, 0, 0, 0⟩,  -- KEEP.RUN
  ⟨0x180E0, 8, 1, 0, .fw, .always, 0xFFFFFF00FFFFFFFF, 0, 0, 0, 0, 0, 0⟩,  -- KEEP.FAULT.W0
  ⟨0x180E8, 8, 3, 0, .fw, .always, 0xFFFFFFFFFFFFFFFF, 0, 0, 0, 0, 0, 0⟩,  -- KEEP.FAULT.W1-W3
  ⟨0x18100, 8, 1, 0, .fw, .always, 0x1FFFFFFFFF, 0, 0, 0, 0, 0, 0⟩,  -- KEEP.HIST
  ⟨0x18108, 8, 31, 0, .fw, .always, 0xFFFFFFE0FFFFFFFF, 0, 0, 0, 0, 0, 0⟩,  -- KEEP.EVT[j]
  ⟨0x19000, 0x40, 64, 0, .host, .always, 0, 0xFFFFFFFF000100FF, 0, 0, 0, 0, 0⟩,  -- CMD.SLOT[c].W0
  ⟨0x19008, 0x40, 64, 0, .host, .always, 0, 0xFFFFFFFFFFFFFFFF, 0, 0, 0, 0, 0⟩,  -- CMD.SLOT[c].W1
  ⟨0x19010, 0x40, 64, 0, .host, .always, 0, 0xFFFFFFFFFFFFFFFF, 0, 0, 0, 0, 0⟩,  -- CMD.SLOT[c].W2
  ⟨0x19018, 0x40, 64, 0, .host, .always, 0, 0xFFFFFFFFFFFFFFFF, 0, 0, 0, 0, 0⟩,  -- CMD.SLOT[c].W3
  ⟨0x19020, 0x40, 64, 0, .host, .always, 0, 0xFFFFFFFFFFFFFFFF, 0, 0, 0, 0, 0⟩,  -- CMD.SLOT[c].W4
  ⟨0x19028, 0x40, 64, 0, .host, .always, 0, 0xFFFFFFFFFFFFFFFF, 0, 0, 0, 0, 0⟩,  -- CMD.SLOT[c].W5
  ⟨0x19030, 0x40, 64, 0, .host, .always, 0, 0xFFFFFFFFFFFFFFFF, 0, 0, 0, 0, 0⟩,  -- CMD.SLOT[c].W6
  ⟨0x19038, 0x40, 64, 0, .host, .always, 0, 0xFFFFFFFFFFFFFFFF, 0, 0, 0, 0, 0⟩,  -- CMD.SLOT[c].W7
  ⟨0x1A000, 0x40, 64, 0, .fw, .always, 0xFFFFFFFFFFFF000F, 0, 0, 0, 0, 0, 0⟩,  -- RPL.SLOT[c].W0
  ⟨0x1A008, 0x40, 64, 0, .fw, .always, 0xFFFFFFFFFFFFFFFF, 0, 0, 0, 0, 0, 0⟩,  -- RPL.SLOT[c].W1
  ⟨0x1A010, 0x40, 64, 0, .fw, .always, 0xFFFFFFFFFFFFFFFF, 0, 0, 0, 0, 0, 0⟩,  -- RPL.SLOT[c].W2
  ⟨0x1A018, 0x40, 64, 0, .fw, .always, 0xFFFFFFFFFFFFFFFF, 0, 0, 0, 0, 0, 0⟩,  -- RPL.SLOT[c].W3
  ⟨0x1A020, 0x40, 64, 0, .fw, .always, 0xFFFFFFFFFFFFFFFF, 0, 0, 0, 0, 0, 0⟩,  -- RPL.SLOT[c].W4
  ⟨0x1A028, 0x40, 64, 0, .fw, .always, 0xFFFFFFFFFFFFFFFF, 0, 0, 0, 0, 0, 0⟩,  -- RPL.SLOT[c].W5
  ⟨0x1A030, 0x40, 64, 0, .fw, .always, 0xFFFFFFFFFFFFFFFF, 0, 0, 0, 0, 0, 0⟩,  -- RPL.SLOT[c].W6
  ⟨0x1A038, 0x40, 64, 0, .fw, .always, 0xFFFFFFFFFFFFFFFF, 0, 0, 0, 0, 0, 0⟩,  -- RPL.SLOT[c].W7
  ⟨0x20000, 0x100, 4, 0, .hw, .always, 0xC0000000FFFFFFFF, 0, 0, 0, 0, 0, 0⟩,  -- CCDBG[k].STAT
  ⟨0x20008, 0x100, 4, 0, .hw, .always, 0xFFFFFFFFFFFFFF, 0, 0x8000000000000000, 0, 0, 0, 0⟩,  -- CCDBG[k].TRAP
  ⟨0x20010, 0x100, 4, 0, .host, .always, 0, 0x3FFF8, 0, 0, 0, 0, 0⟩,  -- CCDBG[k].MADDR
  ⟨0x20018, 0x100, 4, 0, .hw, .always, 0xFFFFFFFFFFFFFFFF, 0, 0, 0, 0, 0, 0⟩ ]  -- CCDBG[k].MDATA
/-- Every register of the window (R328). -/
def regRows : List RegRow := regRowsGlobal ++ regRowsPort ++ regRowsTable ++ regRowsSync ++ regRowsRest

/-- The index of an offset in a row, where the row has it. -/
def RegRow.indexOf (r : RegRow) (off : Nat) : Option Nat :=
  if off < r.base then none
  else
    let i := (off - r.base) / r.stride
    if (off - r.base) % r.stride = 0 ∧ i < r.count ∧ (r.blocks = 0 ∨ bitAt r.blocks i) then some i else none

/-- The first row of a list that has the offset, with the index there. -/
def rowIn (off : Nat) : List RegRow → Option (RegRow × Nat)
  | [] => none
  | r :: rs =>
    match r.indexOf off with
    | some i => some (r, i)
    | none => rowIn off rs

/-- The row and index of an offset; none where the offset is unassigned (R328). -/
def regRow (off : Nat) : Option (RegRow × Nat) := rowIn off regRows

/-- Initial request credits of a port (Table 3.9). -/
def reqCredits (p : Nat) : Nat := if p < 4 then 32 else if p < 10 then 64 else if p = 12 then 8 else 0

/-- Initial write-data credits, or receive credits for RP and TP (Table 3.9). -/
def wdCredits (p : Nat) : Nat := if p < 4 then 32 else if p < 12 then 64 else if p = 12 then 8 else 0

/-- The reset value of the register at an offset (R334 and the reset columns of Tables 15.2 to 15.17). -/
def regReset (off : Nat) : Word :=
  match regRow off with
  | none => 0
  | some (r, i) =>
    if r.unit = .bank then BitVec.ofNat 64 (i % 64)       -- `INT.REMAP[LB].PHYS` = LB mod 64
    else BitVec.ofNat 64 r.reset

end Sys2Proof.Machine
end

