-- ==== Sys2Proof/Machine/Offsets.lean ====
section
/-! DEFINITION. Offsets of the registers the block itself reads and writes (chapter 15), by their names. -/
namespace Sys2Proof.Machine

abbrev oIdVersion : Nat := 0x00000
abbrev oIdConfig : Nat := 0x00008
abbrev oIdInstance : Nat := 0x00010
abbrev oIdFuse : Nat := 0x00018
abbrev oGlbErr : Nat := 0x01000
abbrev oIrqLine : Nat := 0x01010
abbrev oIrqPend : Nat := 0x01018
abbrev oIrqForce : Nat := 0x01020
abbrev oIen (s : Nat) : Nat := 0x01100 + 8 * s
abbrev oBootCtl : Nat := 0x01200
abbrev oBootStat : Nat := 0x01208
abbrev oCmdPosted : Nat := 0x01220
abbrev oCmdDone : Nat := 0x01228
abbrev oCmdStat : Nat := 0x01230
abbrev oHb (k : Nat) : Nat := 0x01240 + 8 * k
abbrev oHangCfg : Nat := 0x01300
abbrev oHangPorts : Nat := 0x01308
abbrev oHangSlots : Nat := 0x01310
abbrev oHangCtx : Nat := 0x01318
abbrev oRstCfg : Nat := 0x01320
abbrev oRstStat : Nat := 0x01328
abbrev oRstFault : Nat := 0x01330
abbrev oTrip : Nat := 0x01400
/-- Register at offset `o` of port block p. -/
abbrev oPort (p o : Nat) : Nat := 0x02000 + 0x100 * p + o
abbrev oCfg (p : Nat) : Nat := oPort p 0x00
abbrev oPErr (p : Nat) : Nat := oPort p 0x08
abbrev oCredit (p : Nat) : Nat := oPort p 0x10
abbrev oPStat (p : Nat) : Nat := oPort p 0x18
abbrev oArb (p : Nat) : Nat := oPort p 0x20
abbrev oLost (p : Nat) : Nat := oPort p 0x28
abbrev oWait (p : Nat) : Nat := oPort p 0x30
abbrev oMaxw (p : Nat) : Nat := oPort p 0x38
abbrev oComb (p : Nat) : Nat := oPort p 0x40
abbrev oBp (p : Nat) : Nat := oPort p 0x48
abbrev oSbHold (p : Nat) : Nat := oPort p 0x50
abbrev oStrmSq (p : Nat) : Nat := oPort p 0x58
abbrev oVpcCtl (p : Nat) : Nat := oPort p 0x60
abbrev oVpcHit (p : Nat) : Nat := oPort p 0x68
abbrev oVpcMiss (p : Nat) : Nat := oPort p 0x70
abbrev oStrm (p k : Nat) : Nat := oPort p 0x78 + 8 * k
abbrev oRamp (p : Nat) : Nat := oPort p 0xA0
abbrev oRampStat (p : Nat) : Nat := oPort p 0xA8
abbrev oHangPort (p : Nat) : Nat := oPort p 0xB0
abbrev oProg (p : Nat) : Nat := oPort p 0xB8
abbrev oSlotAct (g w : Nat) : Nat := 0x04000 + 0x20 * g + 8 * w
abbrev oSlotShd (g w : Nat) : Nat := 0x04400 + 0x20 * g + 8 * w
abbrev oSwap : Nat := 0x04800
abbrev oFreeze : Nat := 0x04808
abbrev oFrzFw : Nat := 0x04810
abbrev oDrained : Nat := 0x04818
abbrev oRank : Nat := 0x04820
abbrev oTime : Nat := 0x04828
abbrev oSlotStat : Nat := 0x04830
abbrev oGrp (g : Nat) : Nat := 0x04900 + 8 * g
abbrev oRgn (n o : Nat) : Nat := 0x06000 + 0x20 * n + o
abbrev oView (v o : Nat) : Nat := 0x08000 + 0x20 * v + o
abbrev oCtxt (s o : Nat) : Nat := 0x10000 + 0x20 * s + o
abbrev oRoute (r : Nat) : Nat := 0x10800 + 8 * r
abbrev oRing (k : Nat) : Nat := 0x10C00 + 8 * k
abbrev oSyncCfg : Nat := 0x10E00
abbrev oDlat : Nat := 0x10E08
abbrev oSyncErr : Nat := 0x10E10
abbrev oSyncStat : Nat := 0x10E18
abbrev oSyncMiss : Nat := 0x10E20
abbrev oEvict : Nat := 0x10E28
abbrev oMissRetry : Nat := 0x10E30
abbrev oLate : Nat := 0x10E38
abbrev oMis : Nat := 0x10E40
abbrev oMisLast : Nat := 0x10E48
abbrev oHold : Nat := 0x10E50
abbrev oWqFull : Nat := 0x10E58
abbrev oFtime : Nat := 0x10E60
abbrev oAccErr : Nat := 0x10F00
abbrev oAccOvf (w : Nat) : Nat := 0x10F08 + 8 * w
abbrev oFiltSel : Nat := 0x10F28
abbrev oFiltView : Nat := 0x10F30
abbrev oAccFull : Nat := 0x10F38
abbrev oFiltered : Nat := 0x10F40
abbrev oAccLost : Nat := 0x10F48
abbrev oSbEnt (i : Nat) : Nat := 0x11000 + 8 * i
abbrev oSbStat : Nat := 0x11800
abbrev oSbAborts : Nat := 0x11808
abbrev oSbAlast : Nat := 0x11810
abbrev oSbFull : Nat := 0x11818
abbrev oWin (w : Nat) : Nat := 0x12000 + 0x10 * w
abbrev oSnd (w : Nat) : Nat := 0x12008 + 0x10 * w
abbrev oRmtCfg : Nat := 0x13000
abbrev oRmtErr : Nat := 0x13008
abbrev oRmtLate : Nat := 0x13010
abbrev oRefused : Nat := 0x13018
abbrev oRmtStat : Nat := 0x13020
abbrev oResend : Nat := 0x13028
abbrev oTwinCfg : Nat := 0x13040
abbrev oTwinStat : Nat := 0x13048
abbrev oTwinErr : Nat := 0x13050
abbrev oRepair : Nat := 0x13058
abbrev oTwinOut : Nat := 0x13060
abbrev oIntCfg : Nat := 0x14000
abbrev oIntErr : Nat := 0x14008
abbrev oChk : Nat := 0x14010
abbrev oElogCtl : Nat := 0x14018
abbrev oElogW0 : Nat := 0x14020
abbrev oElogW1 : Nat := 0x14028
abbrev oElogStat : Nat := 0x14030
abbrev oFirstW0 : Nat := 0x14038
abbrev oFirstW1 : Nat := 0x14040
abbrev oUe (sl : Nat) : Nat := 0x14048 + 8 * sl
abbrev oCe (sl : Nat) : Nat := 0x14088 + 8 * sl
abbrev oSpare (sl : Nat) : Nat := 0x140C8 + 8 * sl
abbrev oRetired (sl : Nat) : Nat := 0x14108 + 8 * sl
abbrev oRemap (lb : Nat) : Nat := 0x14800 + 8 * lb
abbrev oBankCe (j : Nat) : Nat := 0x15800 + 8 * j
abbrev oBtCfg : Nat := 0x17000
abbrev oNoSlot : Nat := 0x17008
abbrev oBtSl (sl : Nat) : Nat := 0x17010 + 8 * sl
abbrev oBtFw (sl k : Nat) : Nat := 0x17050 + 0x38 * sl + 8 * k
abbrev oTrim (k : Nat) : Nat := 0x17300 + 8 * k
abbrev oPwrCfg : Nat := 0x16000
abbrev oCap : Nat := 0x16008
abbrev oIlim : Nat := 0x16010
abbrev oPwrStat : Nat := 0x16018
abbrev oOps : Nat := 0x16020
abbrev oLock : Nat := 0x16028
abbrev oVtabF : Nat := 0x16030
abbrev oVtabS : Nat := 0x16038
abbrev oAge : Nat := 0x16040
abbrev oOpAvail : Nat := 0x16048
abbrev oEst : Nat := 0x16050
abbrev oDom (d : Nat) : Nat := 0x16058 + 8 * d
abbrev oGate : Nat := 0x160A0
abbrev oNote : Nat := 0x160A8
abbrev oArm : Nat := 0x160B0
abbrev oIdle : Nat := 0x160B8
abbrev oAborts : Nat := 0x160C0
abbrev oVar : Nat := 0x160C8
abbrev oDroop : Nat := 0x160D0
abbrev oAgemon (d : Nat) : Nat := 0x16100 + 8 * d
abbrev oAgemonNote : Nat := 0x16148
abbrev oPhaseA (k : Nat) : Nat := 0x16200 + 0x10 * k
abbrev oPhaseB (k : Nat) : Nat := 0x16208 + 0x10 * k
abbrev oKeep (i : Nat) : Nat := 0x18000 + 8 * i
abbrev oCmdSlot (c i : Nat) : Nat := 0x19000 + 0x40 * c + 8 * i
abbrev oRplSlot (c i : Nat) : Nat := 0x1A000 + 0x40 * c + 8 * i
abbrev oDbgStat (k : Nat) : Nat := 0x20000 + 0x100 * k
abbrev oDbgTrap (k : Nat) : Nat := 0x20008 + 0x100 * k
abbrev oDbgMaddr (k : Nat) : Nat := 0x20010 + 0x100 * k
abbrev oDbgMdata (k : Nat) : Nat := 0x20018 + 0x100 * k

end Sys2Proof.Machine
end

