-- ==== Sys2Proof/Machine/Formats.lean ====
section
/-! DEFINITION. Storage and delivery formats (§4.5 to §4.9) and the arithmetic of the accumulate units (§8.1, §8.2):
encodings, rounding, special values, MX blocks, stochastic rounding, FX64. -/
namespace Sys2Proof.Machine

/-- The value of a stored or delivered element: exact reals, with the special values of Table 4.9. -/
inductive FV where
  | nan
  | inf (neg : Bool)
  /-- `(-1)^neg * m * 2^e`; `m = 0` is a signed zero. -/
  | fin (neg : Bool) (m : Nat) (e : Int)
  deriving DecidableEq, Repr

/-- What a floating-point format does with its all-ones exponents (Table 4.6). -/
inductive Special where
  /-- Infinities and NaNs as IEEE 754. -/
  | ieee
  /-- E4M3: only S.1111.111 is a NaN. -/
  | e4m3
  /-- Every code is finite. -/
  | finite
  deriving DecidableEq, Repr

/-- A floating-point format: exponent bits, mantissa bits, bias, special codes. -/
structure FloatFmt where
  eb : Nat
  mb : Nat
  bias : Int
  special : Special
  deriving DecidableEq, Repr

def FloatFmt.fp32 : FloatFmt := ⟨8, 23, 127, .ieee⟩
def FloatFmt.bf16 : FloatFmt := ⟨8, 7, 127, .ieee⟩
def FloatFmt.fp16 : FloatFmt := ⟨5, 10, 15, .ieee⟩
def FloatFmt.e4m3 : FloatFmt := ⟨4, 3, 7, .e4m3⟩
def FloatFmt.e5m2 : FloatFmt := ⟨5, 2, 15, .ieee⟩
def FloatFmt.e2m3 : FloatFmt := ⟨2, 3, 1, .finite⟩
def FloatFmt.e3m2 : FloatFmt := ⟨3, 2, 3, .finite⟩
def FloatFmt.e2m1 : FloatFmt := ⟨2, 1, 1, .finite⟩

/-- An element encoding of Table 4.6, without MX scales. -/
inductive ElemFmt where
  | float (f : FloatFmt)
  /-- Two's complement of `w` bits, saturating to `[-lo, hi]`, its unit weighing `2^e` (MXINT8: −6; INT8, INT4: 0). -/
  | int (w lo hi : Nat) (e : Int)
  deriving DecidableEq, Repr

/-- Rounding (R88, R93): nearest even, stochastic with its 24-bit random value, toward zero. -/
inductive Rnd where
  | nearest
  | stochastic (rv : Nat)
  | zero
  deriving DecidableEq, Repr

/-- The value of a code of a floating-point format. -/
def FloatFmt.decode (f : FloatFmt) (w : Nat) : FV :=
  let neg := bitAt w (f.eb + f.mb)
  let ex := fld w (f.eb + f.mb - 1) f.mb
  let mant := w % 2 ^ f.mb
  let top := ex = 2 ^ f.eb - 1
  if f.special = .ieee ∧ top then (if mant = 0 then .inf neg else .nan)
  else if f.special = .e4m3 ∧ top ∧ mant = 2 ^ f.mb - 1 then .nan
  else if ex = 0 then .fin neg mant (1 - f.bias - f.mb)
  else .fin neg (2 ^ f.mb + mant) (ex - f.bias - f.mb)

/-- `m * 2^sh` rounded to an integer (R88, R93). -/
def roundShift (r : Rnd) (m : Nat) (sh : Int) : Nat :=
  if 0 ≤ sh then m * 2 ^ sh.toNat
  else
    let d := 2 ^ (-sh).toNat
    let q := m / d
    let rem := m % d
    match r with
    | .zero => q
    | .nearest => if 2 * rem > d ∨ (2 * rem = d ∧ q % 2 = 1) then q + 1 else q
    | .stochastic rv => if rem * 2 ^ 24 / d + rv ≥ 2 ^ 24 then q + 1 else q

/-- The largest finite code of a format, without its sign. -/
def FloatFmt.maxCode (f : FloatFmt) : Nat :=
  match f.special with
  | .ieee => (2 ^ f.eb - 1) * 2 ^ f.mb - 1
  | .e4m3 => 2 ^ (f.eb + f.mb) - 2
  | .finite => 2 ^ (f.eb + f.mb) - 1

/-- The magnitude code of `m * 2^e`, rounded, before the overflow treatment: the code of the largest exponent field may
be exceeded. -/
def FloatFmt.magCode (f : FloatFmt) (r : Rnd) (m : Nat) (e : Int) : Nat :=
  if m = 0 then 0
  else
    let emin := 1 - f.bias
    let le : Int := Nat.log2 m + e
    let top := if le < emin then emin else le
    let q := roundShift r m (e - (top - f.mb))
    (top - emin).toNat * 2 ^ f.mb + q

/-- The code of a value in a floating-point format with the treatment of Table 4.9. FP32, BF16 and FP16 overflow to
infinity when rounding to nearest; every other overflow saturates. -/
def FloatFmt.encode (f : FloatFmt) (r : Rnd) (v : FV) : Nat :=
  let sign (n : Bool) : Nat := if n then 2 ^ (f.eb + f.mb) else 0
  let infCode := (2 ^ f.eb - 1) * 2 ^ f.mb
  match v with
  | .nan =>
    if f = .e5m2 then 0x7E
    else if f.special = .ieee then infCode + 2 ^ (f.mb - 1)
    else 2 ^ (f.eb + f.mb) - 1
  | .inf neg => sign neg + (if f.special = .ieee then infCode else f.maxCode)
  | .fin neg m e =>
    let c := f.magCode r m e
    if c ≤ f.maxCode then sign neg + c
    else if f.special = .ieee ∧ f ≠ .e5m2 ∧ r = .nearest then sign neg + infCode
    else sign neg + f.maxCode

/-- The value of an element's code. -/
def ElemFmt.decode : ElemFmt → Nat → FV
  | .float f, w => f.decode w
  | .int wd _ _ e, w =>
    let v := signedOf wd w
    .fin (decide (v < 0)) v.natAbs e

/-- The code of a value, rounded and saturated (Table 4.9); an integer has no −0 and stores NaN as 0. -/
def ElemFmt.encode (r : Rnd) : ElemFmt → FV → Nat
  | .float f, v => f.encode r v
  | .int wd lo hi e, v =>
    match v with
    | .nan => 0
    | .inf neg => unsignedOf wd (if neg then -(lo : Int) else hi)
    | .fin neg m ex =>
      let q := roundShift r m (ex - e)
      unsignedOf wd (if neg then -(min q lo : Nat) else (min q hi : Nat))

/-- Bits of an element code. -/
def ElemFmt.bits : ElemFmt → Nat
  | .float f => 1 + f.eb + f.mb
  | .int w _ _ _ => w

/-! ## Format codes -/

/-- The element encoding of storage format codes 0x0 to 0xB (Table 4.6). FX64 and RAW have none. -/
def storeElem (fmt : Nat) : ElemFmt :=
  match fmt with
  | 0 => .float .fp32
  | 1 => .float .bf16
  | 2 => .float .fp16
  | 3 => .float .e4m3
  | 4 => .float .e5m2
  | 5 => .float .e4m3
  | 6 => .float .e2m3
  | 7 => .float .e3m2
  | 8 => .float .e2m1
  | 9 => .int 8 127 127 (-6)
  | 10 => .int 8 128 127 0
  | 11 => .int 4 8 7 0
  | _ => .int 8 128 127 0

/-- A format whose blocks carry scales (0x5 to 0x9). -/
def isMx (fmt : Nat) : Bool := decide (5 ≤ fmt ∧ fmt ≤ 9)

def fmtFx64 : Nat := 12
def fmtRaw : Nat := 13

/-- Bits of a stored element (Table 4.6). -/
def storeBits (fmt : Nat) : Nat :=
  if fmt = fmtFx64 then 64 else if fmt = fmtRaw then 8 else (storeElem fmt).bits

/-- The element encoding of delivery formats 0 to 5 (Table 3.5). -/
def delivElem (dfmt : Nat) : ElemFmt :=
  match dfmt with
  | 0 => .float .fp32
  | 1 => .float .bf16
  | 2 => .float .fp16
  | 3 => .float .e4m3
  | 4 => .float .e5m2
  | _ => .int 8 128 127 0

def dRaw : Nat := 6
def dMx : Nat := 7

/-- Bits of a delivered element; RAW and MX-passthrough count bytes. -/
def delivBits (dfmt : Nat) : Nat := if dfmt < 6 then (delivElem dfmt).bits else 8

/-- Block bytes of an MX format (Table 4.7). -/
def mxBlockBytes (fmt : Nat) : Nat := if fmt = 8 then 16 else if fmt = 6 ∨ fmt = 7 then 24 else 32

/-- Largest element exponent used in scale derivation (Table 4.7). -/
def mxEmax (fmt : Nat) : Int :=
  if fmt = 5 then 8 else if fmt = 7 then 4 else if fmt = 9 then 0 else 2

/-- Storage granule of a row in bytes (R74). -/
def granule (fmt : Nat) : Nat :=
  if isMx fmt then mxBlockBytes fmt
  else if fmt = 0 then 4 else if fmt = 1 ∨ fmt = 2 then 2 else if fmt = fmtFx64 then 8 else 1

/-- A delivery format that is the storage format itself: no conversion, every bit passes (R89). -/
def sameFormat (fmt dfmt : Nat) : Bool := decide ((fmt = dfmt ∧ fmt < 5) ∨ (fmt = 10 ∧ dfmt = 5))

/-- Pairs of Table 4.8 a read may use. -/
def pairRead (fmt dfmt : Nat) : Bool :=
  if fmt > 13 ∨ dfmt > 7 then false
  else if isMx fmt then decide (dfmt ≤ 2 ∨ dfmt = dMx)
  else if fmt = fmtFx64 then decide (dfmt ≤ 2 ∨ dfmt = dRaw)
  else if fmt = fmtRaw then decide (dfmt = dRaw)
  else decide (dfmt ≤ 6)

/-- Pairs of Table 4.8 a write may use. -/
def pairWrite (fmt dfmt : Nat) : Bool :=
  pairRead fmt dfmt && !decide (fmt = fmtFx64 ∧ (dfmt = 1 ∨ dfmt = 2))

/-- Elements of a row of `len` storage bytes (R86). -/
def rowElems (fmt len : Nat) : Nat := 8 * len / storeBits fmt

/-- Delivered bytes of a row of `len` storage bytes, and the beat row size of a write (R86). -/
def delivRow (fmt dfmt len : Nat) : Nat :=
  if dfmt = dRaw then len
  else if dfmt = dMx then len + len / mxBlockBytes fmt
  else rowElems fmt len * (delivBits dfmt / 8)

/-! ## Elements of byte rows -/

/-- `n` fields of `w` bits from a number, least significant first (R83). -/
def splitBits (w : Nat) : Nat → Nat → List Nat
  | 0, _ => []
  | n + 1, v => v % 2 ^ w :: splitBits w n (v / 2 ^ w)

/-- The number whose fields of `w` bits are listed. -/
def joinBits (w : Nat) : List Nat → Nat
  | [] => 0
  | v :: vs => v % 2 ^ w + 2 ^ w * joinBits w vs

/-- The elements of a row of bytes. -/
def elemsOf (w : Nat) (bs : List Byte) : List Nat := splitBits w (8 * bs.length / w) (natLE bs)

/-- The bytes of a list of elements. -/
def bytesOf (w : Nat) (es : List Nat) : List Byte := bytesLE ((w * es.length + 7) / 8) (joinBits w es)

/-! ## Reads (R88, R90, R172) -/

/-- An element under an E8M0 scale (R90). -/
def scaled (e : Nat) (v : FV) : FV :=
  if e = 255 then .nan
  else match v with
    | .fin neg m x => .fin neg m (x + e - 127)
    | w => w

/-- The value of a stored FX64 word under anchor `a` (R172). -/
def fx64Value (a : Int) (w : Nat) : FV :=
  let v := signedOf 64 w
  .fin (decide (v < 0)) v.natAbs a

/-- The signed anchor of its 8-bit field (Table 2.4). -/
def anchorOf (b : Nat) : Int := signedOf 8 b

/-- Delivers one stored element, with its scale in an MX region. -/
def deliverElem (fmt dfmt : Nat) (anchor : Int) (scale w : Nat) : Nat :=
  if sameFormat fmt dfmt then w
  else
    let v := if fmt = fmtFx64 then fx64Value anchor w
      else if isMx fmt then scaled scale ((storeElem fmt).decode w)
      else (storeElem fmt).decode w
    (delivElem dfmt).encode .nearest v

/-- Pairs each element of an MX row with its block's scale. -/
def withScales : List Nat → List Nat → Nat → List (Nat × Nat)
  | [], _, _ => []
  | e :: es, sc, i => (e, sc.getD (i / 32) 0) :: withScales es sc (i + 1)

/-- The delivered elements of a stored row; `scales` are its blocks' scale bytes in an MX region. -/
def deliverElems (fmt dfmt : Nat) (anchor : Int) (row : List Byte) (scales : List Nat) : List Nat :=
  (withScales (elemsOf (storeBits fmt) row) scales 0).map fun p => deliverElem fmt dfmt anchor p.2 p.1

/-- The delivered bytes of a stored row (R85, R86). -/
def deliverRow (fmt dfmt : Nat) (anchor : Int) (row : List Byte) (scales : List Nat) : List Byte :=
  if dfmt = dRaw then row
  else if dfmt = dMx then row ++ scales.map (BitVec.ofNat 8)
  else bytesOf (delivBits dfmt) (deliverElems fmt dfmt anchor row scales)

/-! ## Stochastic rounding (R93) -/

/-- The 24-bit random value of an element: epoch, seed, stored bit address. -/
def randomValue (ep seed ea : Nat) : Nat :=
  let M := 2 ^ 64
  let k := (ep * 2 ^ 32 % M) ||| seed
  let x := k ^^^ (ea * 0x9E3779B97F4A7C15 % M)
  let x := (x ^^^ (x >>> 30)) * 0xBF58476D1CE4E5B9 % M
  let x := (x ^^^ (x >>> 27)) * 0x94D049BB133111EB % M
  let x := x ^^^ (x >>> 31)
  fld x 63 40

/-- The rounding of an element under a region's `RND` (R88). -/
def rndOf (rnd ep seed ea : Nat) : Rnd :=
  if rnd = 1 then .stochastic (randomValue ep seed ea) else if rnd = 2 then .zero else .nearest

/-! ## Writes -/

/-- FX64 conversion (R170): the 64-bit word, `ovf_seen`, `nan_seen`. -/
def toFx64 (a : Int) (v : FV) : Nat × Bool × Bool :=
  let lim := 2 ^ 63 - 1
  match v with
  | .nan => (0, false, true)
  | .inf neg => (unsignedOf 64 (if neg then -(lim : Int) else lim), true, false)
  | .fin neg m e =>
    let q := roundShift .zero m (e - a)
    if q > lim then (unsignedOf 64 (if neg then -(lim : Int) else lim), true, false)
    else (unsignedOf 64 (if neg then -(q : Int) else q), false, false)

/-- How a row's elements are rounded: the region's `RND` and `SEED`, the request's epoch, the bit address of the row. -/
structure Rounding where
  rnd : Nat
  seed : Nat
  ep : Nat
  bit : Nat
  deriving DecidableEq, Repr

/-- Rounding of element `i`, of `w` bits, of the row. -/
def Rounding.at (q : Rounding) (w i : Nat) : Rnd := rndOf q.rnd q.ep q.seed (q.bit + w * i)

/-- Stores one delivered element in a format without scales (R88, R89). -/
def storeOne (fmt dfmt : Nat) (q : Rounding) (i w : Nat) : Nat :=
  if sameFormat fmt dfmt then w
  else (storeElem fmt).encode (q.at (storeBits fmt) i) ((delivElem dfmt).decode w)

/-- Elements of a row stored from element `i` on. -/
def storeList (fmt dfmt : Nat) (q : Rounding) : Nat → List Nat → List Nat
  | _, [] => []
  | i, w :: ws => storeOne fmt dfmt q i w :: storeList fmt dfmt q (i + 1) ws

/-- The exponent of a value's leading 1; none for zero and special values. -/
def floorLog2 : FV → Option Int
  | .fin _ m e => if m = 0 then none else some (Nat.log2 m + e)
  | _ => none

/-- The larger of two optional exponents. -/
def maxExp : Option Int → Option Int → Option Int
  | none, b => b
  | a, none => a
  | some a, some b => some (max a b)

def FV.isFin : FV → Bool
  | .fin _ _ _ => true
  | _ => false

/-- Elements of an MX block quantised under `2^x`, from element `i` of the row on. -/
def quantiseList (fmt : Nat) (q : Rounding) (x : Int) : Nat → List FV → List Nat
  | _, [] => []
  | i, v :: vs =>
    let w := match v with
      | .fin neg m e => (storeElem fmt).encode (q.at (storeBits fmt) i) (.fin neg m (e - x))
      | _ => 0
    w :: quantiseList fmt q x (i + 1) vs

/-- Scale and elements of one MX block (R91), whose first element is element `i` of the row. -/
def quantiseBlock (fmt : Nat) (q : Rounding) (i : Nat) (vs : List FV) : Nat × List Nat :=
  if !vs.all FV.isFin then (0xFF, vs.map fun _ => 0)
  else
    match vs.foldl (fun a v => maxExp a (floorLog2 v)) none with
    | none => (0, quantiseList fmt q 0 i vs)
    | some l =>
      let x := max (l - mxEmax fmt) (-127)
      ((x + 127).toNat, quantiseList fmt q x i vs)

/-- Blocks of a row (R84): scales and elements. -/
def quantiseBlocks (fmt : Nat) (q : Rounding) : Nat → Nat → List FV → List Nat × List Nat
  | 0, _, _ => ([], [])
  | n + 1, i, vs =>
    let (sc, es) := quantiseBlock fmt q i (vs.take 32)
    let (scs, ess) := quantiseBlocks fmt q n (i + 32) (vs.drop 32)
    (sc :: scs, es ++ ess)

/-- A stored row: its bytes, its blocks' scales, and for FX64 the flags of its conversion by element (R171). -/
structure StoredRow where
  bytes : List Byte
  scales : List Byte
  flags : List (Bool × Bool)
  deriving DecidableEq, Repr

/-- Quantises the delivered bytes of a row of `len` storage bytes (R85 to R91, R170). -/
def storeRow (fmt dfmt len : Nat) (anchor : Int) (q : Rounding) (data : List Byte) : StoredRow :=
  if dfmt = dRaw then ⟨data.take len, [], []⟩
  else if dfmt = dMx then ⟨data.take len, (data.drop len).take (len / mxBlockBytes fmt), []⟩
  else
    let es := elemsOf (delivBits dfmt) (data.take (delivRow fmt dfmt len))
    if fmt = fmtFx64 then
      let ts := es.map fun w => toFx64 anchor ((delivElem dfmt).decode w)
      ⟨bytesOf 64 (ts.map fun t => t.1), [], ts.map fun t => t.2⟩
    else if isMx fmt then
      let (scs, ws) := quantiseBlocks fmt q (len / mxBlockBytes fmt) 0 (es.map (delivElem dfmt).decode)
      ⟨bytesOf (storeBits fmt) ws, scs.map (BitVec.ofNat 8), []⟩
    else ⟨bytesOf (storeBits fmt) (storeList fmt dfmt q 0 es), [], []⟩

/-! ## Accumulate arithmetic -/

/-- `±m * 2^e` as a signed multiple of `2^g`, `g ≤ e`. -/
def alignedTo (g : Int) (neg : Bool) (m : Nat) (e : Int) : Int :=
  let v : Int := m * 2 ^ (e - g).toNat
  if neg then -v else v

/-- The exact sum of two values (R167): NaN for opposite infinities; an exact zero is −0 only for two −0. -/
def FV.add : FV → FV → FV
  | .nan, _ => .nan
  | _, .nan => .nan
  | .inf a, .inf b => if a = b then .inf a else .nan
  | .inf a, _ => .inf a
  | _, .inf b => .inf b
  | .fin n1 m1 e1, .fin n2 m2 e2 =>
    let g := min e1 e2
    let v := alignedTo g n1 m1 e1 + alignedTo g n2 m2 e2
    if v = 0 then .fin (n1 && n2) 0 0 else .fin (decide (v < 0)) v.natAbs g

/-- binary32 addition, round to nearest even, canonical NaN (R167). -/
def addF32 (a b : Nat) : Nat :=
  FloatFmt.fp32.encode .nearest (FV.add (FloatFmt.fp32.decode a) (FloatFmt.fp32.decode b))

/-- FX64 addition modulo `2^64`, with `ovf_seen` (R171). -/
def addFx64 (s t : Nat) : Nat × Bool :=
  let r := (s + t) % 2 ^ 64
  (r, (bitAt s 63 == bitAt t 63) && (bitAt r 63 != bitAt s 63))

/-- The exact binary32 code of a delivered FP32, BF16 or FP16 value (R167 step 1); a NaN stays a NaN. -/
def toF32 (dfmt w : Nat) : Nat :=
  if dfmt = 0 then w else FloatFmt.fp32.encode .nearest ((delivElem dfmt).decode w)

end Sys2Proof.Machine
end

