-- ==== Sys2Proof/Machine/State.lean ====
section
/-! DEFINITION. The state of the TM3 block as plain data: the register window, the arrays, the chucks, the group
switches, the sync engine, the remote and twin chucks, integrity, power, firmware and pins; and the block after reset. -/
namespace Sys2Proof.Machine

/-- What stops a command. No command of this model does: an error of the TM3 is a response code, a reply, a sticky bit or
an interrupt line. -/
inductive Fault where
  /-- Raised by no command of the model (safe: nothing stops where the block goes on). -/
  | none
  deriving DecidableEq, Repr

/-- Why a command has no meaning. -/
inductive Refusal where
  /-- A row of the table without a meaning yet, by its mnemonic (safe: the block does more than the model). -/
  | notModelled (mnemonic : String)
  deriving DecidableEq, Repr

/-! ## What the block drives -/

/-- One thing the block drove on its pins (R46, R48, R49, R323), recorded in `State.driven` (log 8). -/
inductive Out where
  /-- A read-lane beat: `RSP_R_CODE`, `RSP_R_TAG`, `RSP_R_LAST`, `RSP_R_DATA` (Table 3.1). -/
  | rspR (port code tag : Nat) (last : Bool) (data : List Byte)
  /-- An acknowledgement-lane response: `RSP_A_CODE`, `RSP_A_TAG`, `RSP_A_INFO`. -/
  | rspA (port code tag : Nat) (info : Word)
  /-- An event on EVT (Table 3.10). -/
  | evt (port code ctx tag : Nat) (info : Word)
  /-- A one-cycle pulse on `WAKE[line]` (R63). -/
  | wake (port line : Nat)
  /-- A one-cycle pulse on `DREQ[line]` of DP0 or DP1 (R64). -/
  | dreq (dp line : Nat)
  /-- A response of the CP register path, `CP_REG_RDATA` (R48). -/
  | reg (rdata : Word)
  /-- `CP_REG_CRD`, with the access's response (R48). -/
  | regCrd
  /-- `REQ_CRD` (R59). -/
  | reqCrd (port : Nat)
  /-- `WD_CRD` (R59). -/
  | wdCrd (port : Nat)
  /-- A packet on `LTX` of RP (`tp` false) or TP (R49). -/
  | ltx (tp : Bool) (h : Pkt) (data : List Byte)
  /-- `LRX_CRD` of RP or TP (R49). -/
  | lrxCrd (tp : Bool)
  /-- A wrapper data register shifted out on `WSO` (Table 14.9). -/
  | wso (value : Nat)
  /-- The boundary register on the signals it covers (`WS_EXTEST`, R323). -/
  | ext (cells : List Bool)
  /-- `FUSE_ADDR` with `FUSE_RD` raised: the read of a fuse word (R320). -/
  | fuseRd (addr : Nat)
  deriving DecidableEq, Repr

/-! ## Line accesses and requests -/

/-- What a line access does at its bank. Offsets and elements count from the line's first. -/
inductive AccOp where
  | read
  /-- Write the listed bytes; `ovf` and `nan` are those of FP32 values converted into FX64 (R171). -/
  | write (cells : Table Byte) (ovf nan : Bool)
  /-- Add binary32 addends, by element 0 to 31 (R167). -/
  | add32 (adds : List (Nat × Nat))
  /-- Add FX64 addends, by element 0 to 15, with the conversion's `ovf_seen` and `nan_seen` (R170). -/
  | addFx (adds : List (Nat × Nat × Bool × Bool))
  deriving DecidableEq, Repr

/-- Who issued a line access and takes its outcome. -/
inductive Dest where
  /-- Line `line` of row `row` of request `uid` of a port. -/
  | req (p uid row line : Nat)
  /-- A prefetch of the run-ahead stream opened under number `gen` (R129). -/
  | stream (p k gen step row line : Nat)
  /-- A line of an accepted data packet (R195). -/
  | batch (pk : Nat)
  /-- A mirror write of the peer (R205). -/
  | mirror (h : Pkt)
  /-- A twin fetch of the peer (R208). -/
  | fetch (h : Pkt)
  /-- A resync read of a dirty unit's line (R210). -/
  | resync
  /-- A checker-space access of CP request `uid` (R233). -/
  | checker (uid : Nat)
  /-- A migration copy of the slice (R228). -/
  | copy (sl : Nat)
  /-- An access of the slice's running shaving (R219). -/
  | shaving (sl : Nat)
  deriving DecidableEq, Repr

/-- A line access at a group: agent, line, placement, age (the grant count of its arrival, R101) and what it does. -/
structure Access where
  agent : Nat
  la : Nat
  lb : Nat
  ix : Nat
  /-- The physical bank of a checker-space access (R233). -/
  phys : Option Nat
  /-- Region of the line, for twin and FX64 effects. -/
  rgn : Nat
  age : Nat
  esc : Bool
  /-- Holds its agent's reserved entry rather than a shared one (R106). -/
  resv : Bool
  /-- The grant count at which it was parked (R105). -/
  since : Option Nat
  op : AccOp
  dest : Dest
  deriving DecidableEq, Repr

/-- How far a line of a row has come. -/
inductive LineSt where
  /-- Not issued. -/
  | todo
  /-- Issued to its group. -/
  | sent
  /-- A line waiting for its copy from the twin (R208). -/
  | repair
  /-- A write committed here whose mirror awaits its `TACK` (R206). -/
  | mirror
  /-- Finished, with the line's code (Table 3.8), and the line's bytes for a read. -/
  | done (code : Nat) (data : List Byte)
  deriving DecidableEq, Repr

/-- One line of a row. -/
structure RowLine where
  la : Nat
  lb : Nat
  ix : Nat
  /-- A scale line of an MX row (R84). -/
  scale : Bool
  st : LineSt
  deriving DecidableEq, Repr

/-- One row of a request: its first byte address, its lines, and what the scoreboard or the replay filter did to it. -/
structure Row where
  byte : Nat
  lines : List RowLine
  /-- Held at the range scoreboard now (R123). -/
  held : Bool
  /-- Was held once: read from the banks on its release (R134). -/
  wasHeld : Bool
  /-- Code of a row the replay filter answered (R179). -/
  filtered : Option Nat
  /-- A line of it came from the twin, and `TWIN.REPAIR.DONE` has not counted the row (R211). -/
  repaired : Bool
  deriving DecidableEq, Repr

/-- Stages of an accepted request. -/
inductive Phase where
  /-- Refused at acceptance; its answer waits for its place on the lane. -/
  | refused
  /-- Not yet issued to banks or sync engine. -/
  | waiting
  /-- At the banks, at the scoreboard, at the RP, or waiting for its data. -/
  | active
  /-- Held at the sync engine's input: at a ring bound (R156) or for want of a waiter entry (R149). -/
  | held
  /-- A wait answered `YIELD` (R62). -/
  | yielded
  /-- A `RANGE_CLOSE` evaluated and not yet in force (R125). -/
  | closing
  /-- Its operation has been applied. -/
  | applied
  deriving DecidableEq, Repr

/-- A request accepted by a chuck and not yet answered in full. The header gives its fields (Table 3.5); the rest was fixed
at acceptance: region, snapshot, epoch. -/
structure Req where
  uid : Nat
  h : Hdr
  phase : Phase
  rgn : Nat
  /-- Holds its region (R38). -/
  holds : Bool
  /-- Epoch of stochastic rounding, once sampled (R145). -/
  ep : Option Nat
  /-- Storage bytes of each stored row, and the delivery format: the header's, or the stream's for a step. -/
  rowLen : Nat
  dfmt : Nat
  rows : List Row
  /-- Beats of each row sent by the partner, and how many rows it sends (R54, R349). -/
  beatsPer : Nat
  beatRows : Nat
  /-- Beats received, oldest first, with their word enables. -/
  beats : List (List Byte × Nat)
  /-- Beats whose write-data credit has been returned (R59). -/
  paid : Nat
  /-- Lines that a later `INVAL`, `NOALLOC` or `FLUSH` removed from the line cache: not allocated any more (R133). -/
  barred : List Nat
  /-- Ended by a hog cutoff (code 13) or by fencing (code 8): no further line is issued. -/
  cut : Option Nat
  /-- Rows whose data has been driven on the read lane. -/
  driven : Nat
  /-- Physical counter or flag, or 65,536 + the route's word as read at acceptance (R143, R160). -/
  sync : Nat
  /-- Entry of the replay filter: 4 × slot + entry (R178). -/
  filt : Nat
  /-- An applied addend set a flag (R171, `RSP_A_INFO[0]`). -/
  fxSeen : Bool
  /-- A `FINAL` write's counter has been advanced (R53). -/
  advanced : Bool
  /-- Where its rows lie: 0 words of a region, 1 checker space (R231), 2 load space (R269), 3 another instance (R185). -/
  space : Nat
  /-- Segments of a remote write handed to the RP, and whether its closing packet has been sent (R185, R194). -/
  segs : Nat
  closed : Bool
  /-- Codes of the answers received so far for its packets, and packets outstanding (R197). -/
  codes : List Nat
  outPk : Nat
  ans : Option (Nat × Word)
  deriving DecidableEq, Repr

/-- A header held at acceptance, with beats already received (R54, R151). -/
structure Held where
  uid : Nat
  h : Hdr
  beats : List (List Byte × Nat)
  /-- Beats of each row and rows, as computed at the header (R349). -/
  shape : Nat × Nat
  /-- Ended by a hog cutoff while held: its `ABORT` waits for its place on the lane (R66). -/
  ended : Bool
  deriving DecidableEq, Repr

/-- A write whose beats are still due, in header order (R67, R349). -/
structure BeatDue where
  uid : Nat
  ctx : Nat
  tag : Nat
  need : Nat
  refused : Bool
  deriving DecidableEq, Repr

/-- An event waiting for EVT (R65). -/
structure Evt where
  code : Nat
  ctx : Nat
  tag : Nat
  info : Word
  /-- The registered wait whose entry a `READY` frees when it is driven (R149). -/
  wait : Option Nat
  deriving DecidableEq, Repr

/-- A run-ahead stream tracker (R128 to R131): snapshot rows of each step, what has been fetched, what comes next. -/
structure Stream where
  isOpen : Bool
  /-- Unique number of this opening. -/
  gen : Nat
  ctx : Nat
  gate : Nat
  rgn : Nat
  dfmt : Nat
  depth : Nat
  rowLen : Nat
  /-- Row byte addresses of every step, in step and row order (R80). -/
  steps : List (List Nat)
  /-- Next step to be delivered. -/
  next : Nat
  /-- Rows fetched for steps `next`, `next`+1, …, oldest first; a step may be incomplete. -/
  fetched : List (List Row)
  deriving DecidableEq, Repr

/-- Fencing of a port (R291). -/
inductive Fence where
  | free
  /-- Cut off, outstanding requests draining; the reason. -/
  | draining (reason : Nat)
  /-- `STAT.FENCED` reads 1. -/
  | fenced (reason : Nat)
  deriving DecidableEq, Repr

/-- A chuck's state (R19, R20, R59, R61, R65, R66). -/
structure Port where
  reqCrd : Nat
  wdCrd : Nat
  inq : List Held
  reqs : List Req
  laneR : List Nat
  laneA : List Nat
  due : List BeatDue
  lease : Nat
  /-- A beat was driven in this cycle (R66). -/
  beatNow : Bool
  /-- The cycle of the last hog cutoff, whose beats belong to the cut request (R66). -/
  hogAt : Option Nat
  /-- Credits of CP's register path (R48); no other port has any. -/
  regCrd : Nat
  evtq : List Evt
  evtOvf : Bool
  fence : Fence
  /-- A response was driven in this turn (R288). -/
  progress : Bool
  hangRep : Bool
  /-- Line accesses issued in this frame and in this turn (R253). -/
  frameUse : Nat
  turnUse : Nat
  /-- The VP line cache, most recently used first: line address and data (R132). -/
  vpc : List (Nat × List Byte)
  streams : Table Stream
  deriving DecidableEq, Repr

/-- A bank group: what waits at the chucks for it, what has arrived, what is parked (R101, R106, R174). `grantCount` is
that of the turn (R95), `total` that since reset, by which ages count. -/
structure Group where
  waitq : List Access
  arriving : List Access
  parked : List Access
  /-- Banks completing a two-access grant, with the agent that holds it. -/
  busy : List Nat
  grantCount : Nat
  total : Nat
  /-- Accesses granted in this turn (R254). -/
  grants : Nat
  /-- A grant has been made in this grant cycle. -/
  granted : Bool
  /-- Grant cycles until the accumulate gate may take again. -/
  gateWait : Nat
  /-- The swap request was made by cycle 4,079 of this turn (R97). -/
  swapArmed : Bool
  /-- The freeze in force at the group's input, from the cycle after the write that sets it (R110). -/
  frz : Bool
  deriving DecidableEq, Repr

/-! ## Integrity -/

/-- A running shaving (R219): logical bank, physical bank, first line, step 1 to 16, lines redirected, whether a guard read
failed to return the pattern at trim t − 1 and at t − 2. -/
structure Shaving where
  lb : Nat
  pb : Nat
  ix0 : Nat
  step : Nat
  /-- Accesses of the step still to be granted; 0 before the step begins. -/
  left : Nat
  /-- What the arrays give the reads of the step that runs. -/
  seen : ReadBack
  lo : Nat
  hi : Nat
  bad1 : Bool
  bad2 : Bool
  cal : Bool
  /-- It belongs to a test run, not to the walk (R282). -/
  ofTest : Bool
  deriving DecidableEq, Repr

/-- A running migration (R227): logical bank, old and spare positions, next line to copy, suspended, command answered. -/
structure Migr where
  lb : Nat
  old : Nat
  spare : Nat
  next : Nat
  suspended : Bool
  cmd : Option Nat
  deriving DecidableEq, Repr

/-- A running `TEST_RUN` (R282). -/
structure TestRun where
  cmd : Nat
  lb : Nat
  cal : Bool
  idx : Nat
  words : Nat
  hard : Bool
  deriving DecidableEq, Repr

/-- A recovery of a slice (R297): waiting or running, with recalibration, restarted after a second fault (R299), and the
command it answers. -/
structure Recov where
  running : Bool
  recal : Bool
  again : Bool
  restarted : Bool
  cmd : Option Nat
  deriving DecidableEq, Repr

/-- A slice domain (R26): grant-cycle accumulator (R94), gating and stretch counts, test engine, hold and recovery. -/
structure Slice where
  acc : Nat
  gc : Bool
  gateCnt : Nat
  stretchCnt : Nat
  powered : Bool
  shaving : Option Shaving
  /-- The turn in which the last step of a shaving began: a slice begins at most one a turn (R219). -/
  stepAt : Option Nat
  lastStart : Option Nat
  stopped : Bool
  migr : Option Migr
  /-- Logical banks whose arrays have had a hard fault and are not retired yet (R226). -/
  wantRetire : List Nat
  test : Option TestRun
  hold : Bool
  recov : Option Recov
  deriving DecidableEq, Repr

/-- An entry of the error log (Table 10.8). -/
structure Finding where
  cls : Nat
  agent : Nat
  pb : Nat
  ix : Nat
  syn : Nat
  word : Nat
  count : Nat
  la : Option Nat
  time : Nat
  deriving DecidableEq, Repr

/-! ## Sync engine -/

/-- The last modification of a counter or flag (R155): port, release scope if it was a release, sender of a routed one. -/
structure Modif where
  port : Nat
  rel : Option Nat
  iid : Option Nat
  deriving DecidableEq, Repr

/-- A physical counter (R146). -/
structure Ctr where
  val : Word
  mod : Option Modif
  deriving DecidableEq, Repr

/-- A physical flag (R146). -/
structure Flg where
  val : Bool
  mod : Option Modif
  deriving DecidableEq, Repr

/-- A bound context (R152), with its counters and flags while it is not resident (R151). -/
structure Bound where
  ccnt : Nat
  fcnt : Nat
  rbase : Nat
  rcnt : Nat
  ecen : Bool
  ectr : Nat
  epoch : Nat
  keys : Nat
  ctrs : Table Ctr
  flgs : Table Flg
  deriving DecidableEq, Repr

/-- A registered wait (R149). `met`: its condition came to hold in that FCLK cycle. `told`: its `YIELD` was driven in that
cycle, after which its pulse or event may come (R62). `queued`: its `READY` waits for EVT. -/
structure Waiter where
  /-- Unique number of the request that registered it. -/
  uid : Nat
  port : Nat
  ctx : Nat
  tag : Nat
  isFlag : Bool
  phys : Nat
  sid : Nat
  thr : Word
  cond : Bool
  yield : Bool
  wline : Nat
  acq : Option Nat
  met : Option Nat
  told : Option Nat
  queued : Bool
  deriving DecidableEq, Repr

/-- A remote signal in the timed queue (R162): sender, operation and due time; `held` at a ring's bound (R156). -/
structure TSig where
  isFlag : Bool
  op : Nat
  ctx : Nat
  rsid : Nat
  val : Word
  due : Nat
  siid : Nat
  rel : Option Nat
  sport : Nat
  held : Bool
  deriving DecidableEq, Repr

/-- A replay-filter entry (R178): tile, APPLIED and FAILED bitmaps of 1,024 bits. -/
structure Filter where
  tile : Nat
  applied : BitVec 1024
  failed : BitVec 1024
  deriving DecidableEq, Repr

/-! ## Remote and twin chucks -/

/-- The link side of RP or TP (R49): the level of `LINK_UP`, transmit credits, receive credits the link holds, packets
waiting for a transmit credit. -/
structure Link where
  up : Bool
  txCrd : Nat
  rxCrd : Nat
  txq : List (Pkt × List Byte)
  /-- A packet has been driven in this cycle: at most one is (R49). -/
  sentNow : Bool
  deriving DecidableEq, Repr

/-- A packet kept by the sending RP until it is answered (R198): whose it is (port and request; none for an RSIG). -/
structure Sent where
  ptag : Nat
  h : Pkt
  data : List Byte
  port : Nat
  uid : Option Nat
  since : Nat
  retryAt : Option Nat
  /-- The routed operation whose `RSIG` waits for the link and has no due time yet (R161, R199). -/
  sig : Option Nat
  deriving DecidableEq, Repr

/-- A batch record of the sending RP (R193). -/
structure BatchRec where
  port : Nat
  diid : Nat
  win : Nat
  bseq : Nat
  count : Nat
  closes : Nat
  deriving DecidableEq, Repr

/-- An accepted data packet whose lines are in flight (R195): its window, its batch entry while that stands, lines left, code
so far. -/
structure PkFly where
  id : Nat
  win : Nat
  batch : Option Nat
  left : Nat
  code : Nat
  deriving DecidableEq, Repr

/-- An owner's batch entry (R195, R196). -/
structure OBatch where
  siid : Nat
  sport : Nat
  win : Nat
  bseq : Nat
  done : Nat
  worst : Nat
  closing : Option (Pkt × List Byte)
  since : Nat
  ringHeld : Bool
  deriving DecidableEq, Repr

/-- The RP chuck (§9.3 to §9.6). -/
structure Rp where
  link : Link
  /-- The `PTAG` after the one given out last: tags go round, so that a stale answer meets no new packet of its tag (R199). -/
  nextTag : Nat
  sendBuf : List Sent
  recs : List BatchRec
  batches : Table OBatch
  fly : List PkFly
  /-- Packets held for a context miss at the owner (R162, R191): type, header, payload. -/
  held : List (Pkt × List Byte × Word)
  deriving DecidableEq, Repr

/-- A TWRITE or TFETCH of this instance that awaits its answer (R205 to R208), and what it stands for. -/
structure TAwait where
  ttag : Nat
  fetch : Bool
  h : Pkt
  data : List Byte
  la : Nat
  lb : Nat
  ix : Nat
  dest : Dest
  sent : Bool
  since : Nat
  retryAt : Option Nat
  /-- A write notice for the line has come since the failed read (R208). -/
  noticed : Bool
  /-- The merge that waits for the repaired line (R208, last paragraph). -/
  redo : Option Access
  /-- Its copy, where the merge waits for room for its mirror (R205). -/
  copy : Option (List Byte)
  /-- Conversion flags of a line that the twin alone stores (R43, R171): `ovf_seen`, `nan_seen`. -/
  fx : Bool × Bool
  deriving DecidableEq, Repr

/-- A resync at its source (R210): its command, chunks of the peer's dirty map still to fetch, units and line to copy. -/
structure Resync where
  cmd : Option Nat
  chunks : List Nat
  units : List Nat
  line : Nat
  copied : Nat
  /-- A line could not be read or stored: the resync fails (R210). -/
  failed : Bool
  deriving DecidableEq, Repr

/-- The TP chuck and the pair's binding (§9.7 to §9.11). -/
structure Tp where
  link : Link
  await : List TAwait
  dirty : Table Bool
  resync : Option Resync
  /-- This instance's own TWIN_BIND waiting for its match: command, peer, turn it began (R202). -/
  binding : Option (Nat × Nat × Nat)
  /-- The instance whose ask to bind was seen: from a bound peer a further ask reports a reset (R209, log 27). -/
  peerAsked : Option Nat
  /-- Region command waiting for the peer's answer: command, index, message (R203). -/
  regionCmd : Option (Nat × Nat × Nat)
  /-- The peer has answered the region command. -/
  peerDone : Bool
  /-- Control answers sent, by `TTAG`, for a loss of the packet (R207). -/
  ctlSent : Table (Pkt × List Byte)
  deriving DecidableEq, Repr

/-! ## Power -/

/-- A throttling action on the stack (R251): a class gated one level, or domains lowered one point. -/
inductive Throttle where
  | gate (cls : Nat)
  | lower (doms : List Nat) (emergency : Bool)
  deriving DecidableEq, Repr

/-- A domain's supply, PLLs, droop monitor and idleness (R238 to R246, R254, R306). -/
structure Dom where
  /-- The 24 activity counters, as they stood at the end of the last turn (R247). -/
  acts : List Nat
  /-- The settled voltage, a VID code (R242). -/
  settled : Nat
  /-- A voltage step under way: its code and the turn from which a slice's counts as settled (R239). -/
  setting : Option (Nat × Nat)
  /-- The point the idle PLL relocks to; none: it parks at the next lower point (R241). -/
  relock : Option Nat
  /-- Turn boundaries until the idle PLL is locked. -/
  pllWait : Nat
  /-- The target changed in cycles 4,079 to 4,095 of this turn (R241). -/
  late : Bool
  /-- An ageing offset made the running point unavailable (R240). -/
  opLost : Bool
  /-- Droop is asserted, for how many cycles, and whether it was in cycles 4,080 to 4,095 of this turn (R243 to R246). -/
  droop : Bool
  droopCnt : Nat
  droopLate : Bool
  /-- Target of the response of R246, kept until the host clears `DROOP_LONG`. -/
  droopCap : Option Nat
  /-- Turns of low activity, and points lowered for it (R254). -/
  lowTurns : Nat
  lowered : Nat
  /-- Turns in which a boost is allowed, and points boosted (R254). -/
  boostTurns : Nat
  boosted : Nat
  /-- The last margins sampled, at most 8, newest first (R306). -/
  samples : List Nat
  deriving DecidableEq, Repr

/-- A power-state entry under way (R262): target, step 1 to 6, command, retain mask. Step 7 is X1 of an exit from PS2. -/
structure Entry where
  target : Nat
  step : Nat
  cmd : Option Nat
  retain : Nat
  deriving DecidableEq, Repr

/-- The power manager's hidden state (§11.1 to §11.9). -/
structure Pw where
  doms : Table Dom
  /-- Throttling actions taken and not undone, newest first (R251). -/
  stack : List Throttle
  calm : Nat
  /-- The last four current estimates of each rail, newest first: 0 `VDD_F`, 1 + s slice s, 9 `VDD_A` (R248). -/
  cur : Table (List Nat)
  entry : Option Entry
  /-- A wake event came in step E5 or E6 (R263). -/
  wakeLatched : Bool
  /-- Nothing has broken the quiet of this turn so far (R260). -/
  quiet : Bool
  /-- Slices at retention in PS2. -/
  retained : Nat
  /-- Turn of the last `VF_VREQ`, and whether it timed out (R238). -/
  vfSince : Nat
  vfStuck : Bool
  /-- A droop stretched or R246 acted in this turn (R258). -/
  varTurn : Bool
  phaseCmd : Option Nat
  /-- `DOMAIN_LOCK` under way: its command and mask (R256). -/
  lockCmd : Option (Nat × Nat)
  /-- A thermal trip is in force (R326). -/
  tripped : Bool
  deriving DecidableEq, Repr

/-! ## Firmware, fuses, pins, wrapper -/

/-- A Ploic command accepted and not yet answered (R278). -/
structure Cmd where
  n : Nat
  opc : Nat
  deriving DecidableEq, Repr

/-- Boot ROM and Secen (§12.1, §12.2). Core memories by byte address 2^18 × core + offset. -/
structure Fw where
  mem : Table Byte
  hdr : Table Byte
  digest : Nat
  entry : List Nat
  verMajor : Nat
  verMinor : Nat
  verPatch : Nat
  build : Nat
  running : List Cmd
  replied : List Nat
  /-- `REGION_CLEAR` under way: command and region index. -/
  clearing : Option (Option Nat × Nat)
  /-- `WINDOW_CLOSE` under way: command and window. -/
  closingWin : Option (Nat × Nat)
  fencing : List (Nat × Nat)
  /-- Slices whose recovery waits for a place, in order (R298). -/
  recovQ : List Nat
  /-- The reset before this start was cold. -/
  cold : Bool
  /-- Run minutes at which the next margin sample and the next re-plan are due (R306). -/
  sampleAt : Nat
  replanAt : Nat
  /-- The first re-plan after `KEEP_LOST` is still to come. -/
  firstPlan : Bool
  /-- Control cores that do not execute, one bit each, as the last turn boundary told (R24). -/
  stopped : Nat
  /-- Control cores whose hang has been found and awaits a warm recovery, one bit each (R24, R300). -/
  hung : Nat
  /-- Turns since each core's heartbeat advanced (R24). -/
  stood : Table Nat
  deriving DecidableEq, Repr

/-- The fuse image as read (R320 to R322). -/
structure Fuse where
  words : Table Nat
  keyHash : Nat
  repairs : List Nat
  rdPtr : Nat
  deriving DecidableEq, Repr

/-- The IEEE 1500 wrapper (R323, R324). -/
structure Wrap where
  ir : Nat
  bypass : Bool
  boundary : List Bool
  soft : List Nat
  /-- The data register of `TM_MBIST` as last shifted in. -/
  mbist : Nat
  running : Bool
  done : Bool
  pass : Bool
  firstFail : Nat
  image : List Nat
  rdPtr : Nat
  deriving DecidableEq, Repr

/-- Levels of block pins the TM3 keeps or drives (Table 14.2). -/
structure Pins where
  poreset : Bool
  vfVid : Nat
  vfVreq : Bool
  vfReady : Bool
  vaOk : Bool
  thermTrip : Bool
  /-- `FUSE_ADDR` and `FUSE_RD` (R320). -/
  fuseAddr : Nat
  fuseRd : Bool
  deriving DecidableEq, Repr

/-- The build-time parameters (Table 14.1) and STEP (Table 0.4). -/
structure Build where
  slices : Nat
  ports : Nat
  step : Nat
  deriving DecidableEq, Repr

/-- The block. -/
structure State where
  /-- Commands waiting, first in, first out. -/
  pending : List Instr
  build : Build
  iid : Nat
  /-- The model's own: counts free values taken (log 9). -/
  free : Nat
  /-- The model's own: what has been driven, newest first (log 8). -/
  driven : List Out
  /-- Next unique number for a request or packet (the model's own naming). -/
  uid : Nat
  turn : Nat
  cyc : Nat
  ftime : Word
  /-- Stored registers by offset; an unlisted one holds its reset value (`regReset`). -/
  regs : Table Word
  /-- Staging copies of `S12` and `S34` by offset (R78). -/
  stage : Table Word
  /-- The ranks in force, those that apply at the next turn boundary, and at the one after it (R99); `SLOT.RANK` reads what was
  written last (R333). -/
  rankNow : Word
  rank : Word
  rankLate : Word
  mem : List Host.Cell
  save : List Host.Cell
  /-- Power-ups of each slice's arrays since reset (R41). -/
  powerUps : Table Nat
  ports : Table Port
  groups : Table Group
  slices : Table Slice
  counters : Table Ctr
  flags : Table Flg
  bound : Table Bound
  lastUse : Table Nat
  useClock : Nat
  waiters : List Waiter
  timedQ : List TSig
  marks : Table Nat
  filters : Table Filter
  ctxStall : Table Nat
  ctxMoved : Table Bool
  elog : List Finding
  rp : Rp
  tp : Tp
  pw : Pw
  fw : Fw
  fuse : Fuse
  wrap : Wrap
  pins : Pins
  deriving DecidableEq, Repr

/-- A chuck after reset: the initial credits of Table 3.9, nothing outstanding. -/
def Port.fresh (p : Nat) : Port :=
  { reqCrd := reqCredits p, wdCrd := if p = 10 ∨ p = 11 then 0 else wdCredits p, inq := [], reqs := [], laneR := [], laneA := [],
    due := [], lease := 0, beatNow := false, hogAt := none, regCrd := if p = 12 then 4 else 0, evtq := [], evtOvf := false, fence := .free, progress := false, hangRep := false,
    frameUse := 0, turnUse := 0, vpc := [], streams := [] }

/-- A bank group after reset: empty queues. -/
def Group.fresh : Group :=
  { waitq := [], arriving := [], parked := [], busy := [], grantCount := 0, total := 0, grants := 0, granted := false, gateWait := 0,
    swapArmed := false, frz := false }

/-- A slice after reset, at its first cycle: every FCLK cycle is a grant cycle (R94). -/
def Slice.fresh : Slice :=
  { acc := 0, gc := true, gateCnt := 0, stretchCnt := 0, powered := true, shaving := none, stepAt := none, lastStart := none,
    stopped := true, migr := none, wantRetire := [], test := none, hold := false, recov := none }

/-- A closed stream tracker. -/
def Stream.closed : Stream :=
  { isOpen := false, gen := 0, ctx := 0, gate := 0, rgn := 0, dfmt := 0, depth := 0, rowLen := 0, steps := [], next := 0,
    fetched := [] }

/-- A link that is down. -/
def Link.down : Link := { up := false, txCrd := 0, rxCrd := 0, txq := [], sentNow := false }

/-- A domain after reset: settled at the voltage of its running point (log 14), the idle PLL parked, no droop. -/
def Dom.fresh : Dom :=
  { acts := List.replicate 24 0, settled := 0x3C, setting := none, relock := none, pllWait := 0, late := false, opLost := false, droop := false,
    droopCnt := 0, droopLate := false, droopCap := none, lowTurns := 0, lowered := 0, boostTurns := 0, boosted := 0,
    samples := [] }

/-- An empty owner batch entry. -/
def OBatch.empty : OBatch :=
  { siid := 0, sport := 0, win := 0, bseq := 0, done := 0, worst := 0, closing := none, since := 0,
    ringHeld := false }

/-- An unbound context. -/
def Bound.none : Bound :=
  { ccnt := 0, fcnt := 0, rbase := 0, rcnt := 0, ecen := false, ectr := 0, epoch := 0, keys := 0, ctrs := [], flgs := [] }

/-- An empty replay-filter entry. -/
def Filter.empty : Filter := { tile := 0, applied := 0, failed := 0 }

/-- The RP chuck after reset. -/
def Rp.fresh : Rp := { link := Link.down, nextTag := 0, sendBuf := [], recs := [], batches := [], fly := [], held := [] }

/-- The TP chuck after reset: unbound. -/
def Tp.fresh : Tp :=
  { link := Link.down, await := [], dirty := [], resync := none, binding := none, peerAsked := none, regionCmd := none,
    peerDone := false, ctlSent := [] }

/-- The power manager after reset: no throttling, no entry. -/
def Pw.fresh : Pw :=
  { doms := [], stack := [], calm := 0, cur := [], entry := none, wakeLatched := false, quiet := true, retained := 0,
    vfSince := 0, vfStuck := false, varTurn := false, phaseCmd := none, lockCmd := none, tripped := false }

/-- Firmware after reset: core memories and header buffer cleared (Table 12.1). -/
def Fw.fresh : Fw :=
  { mem := [], hdr := [], digest := 0, entry := [], verMajor := 0, verMinor := 0, verPatch := 0, build := 0, running := [],
    replied := [], clearing := none, closingWin := none, fencing := [], recovQ := [], cold := true, sampleAt := 60,
    replanAt := 1440, firstPlan := false, stopped := 0, hung := 0, stood := [] }

/-- No fuse image read beyond the defaults of log 4. -/
def Fuse.fresh : Fuse := { words := [], keyHash := 0, repairs := [], rdPtr := 0 }

/-- The wrapper in bypass. -/
def Wrap.fresh : Wrap :=
  { ir := 0, bypass := false, boundary := [], soft := [], mbist := 0, running := false, done := false, pass := false, firstFail := 0,
    image := [], rdPtr := 0 }

/-- Pins after the release of `PORESET_N`: `VF_VID` 0x3C, no request (R314), `VA_OK` high (U3 of R316). -/
def Pins.fresh : Pins :=
  { poreset := false, vfVid := 0x3C, vfVreq := false, vfReady := false, vaOk := true, thermTrip := false, fuseAddr := 0, fuseRd := false }

/-- A TM3 of the given build right after the release of `PORESET_N`, strapped `iid` (R334, R41: every line blank). -/
def State.ofBuild (b : Build) (iid : Nat) : State :=
  { pending := [], build := b, iid := iid, free := 0, driven := [], uid := 0, turn := 0, cyc := 0, ftime := 0,
    regs := [], stage := [], rankNow := 0x0EDC45BA98763210, rank := 0x0EDC45BA98763210, rankLate := 0x0EDC45BA98763210, mem := [], save := [], powerUps := [],
    ports := [], groups := [], slices := [], counters := [], flags := [], bound := [], lastUse := [], useClock := 0,
    waiters := [], timedQ := [], marks := [], filters := [], ctxStall := [], ctxMoved := [], elog := [],
    rp := Rp.fresh, tp := Tp.fresh, pw := Pw.fresh, fw := Fw.fresh, fuse := Fuse.fresh, wrap := Wrap.fresh,
    pins := Pins.fresh }

/-- The machine right after reset: a TM3-512 with every port, STEP 0, strap 0 (log 4). -/
def State.reset : State := State.ofBuild { slices := 8, ports := 0x1FFF, step := 0 } 0

end Sys2Proof.Machine
end

