-- ==== Sys2Proof/Machine/Operands.lean ====
section
/-! DEFINITION. Operand forms: the fields of a request header (Table 3.5), which opcodes use which fields, flags and
ports (Tables 3.6 and 3.7), link packet fields (Tables 9.5 and 9.9), remote addresses, views, rows, the interleave. -/
namespace Sys2Proof.Machine

/-! ## Request header -/

/-- A field `[hi:lo]` of a header. -/
def hf (h : Hdr) (hi lo : Nat) : Nat := fld h.toNat hi lo

def hOpc (h : Hdr) : Nat := hf h 4 0
def hOrd (h : Hdr) : Bool := bitAt h.toNat 5
def hFinal (h : Hdr) : Bool := bitAt h.toNat 6
def hRel (h : Hdr) : Bool := bitAt h.toNat 7
def hAcq (h : Hdr) : Bool := bitAt h.toNat 8
def hDone (h : Hdr) : Bool := bitAt h.toNat 9
def hNoalloc (h : Hdr) : Bool := bitAt h.toNat 10
def hScope (h : Hdr) : Nat := hf h 12 11
def hRmt (h : Hdr) : Bool := bitAt h.toNat 13
def hYield (h : Hdr) : Bool := bitAt h.toNat 14
def hCond (h : Hdr) : Bool := bitAt h.toNat 15
def hCtx (h : Hdr) : Nat := hf h 25 16
def hTag (h : Hdr) : Nat := hf h 39 32
def hWline (h : Hdr) : Nat := hf h 44 40
def hSid (h : Hdr) : Nat := hf h 63 48
/-- `ADDR[65:0]`. -/
def hAddr (h : Hdr) : Nat := hf h 129 64
def hValue (h : Hdr) : Nat := hf h 127 64
def hRows (h : Hdr) : Nat := hf h 139 130
def hRowlen (h : Hdr) : Nat := hf h 155 140
def hExt (h : Hdr) : Nat := hf h 156 130
def hDfmt (h : Hdr) : Nat := hf h 158 156
def hT (h : Hdr) : Bool := bitAt h.toNat 159
def hStride (h : Hdr) : Nat := hf h 187 160
def hFadd (h : Hdr) : Nat := hf h 207 192
def hStrm (h : Hdr) : Nat := hf h 209 208
def hDepth (h : Hdr) : Nat := hf h 215 210
def hTile (h : Hdr) : Nat := hf h 239 224
def hTrow (h : Hdr) : Nat := hf h 249 240

/-- Owner instance, window, generation and offset of a remote address (Table 2.8). -/
def rIid (a : Nat) : Nat := fld a 65 51
def rWin (a : Nat) : Nat := fld a 50 43
def rGen (a : Nat) : Nat := fld a 42 27
def rOfs (a : Nat) : Nat := fld a 26 0

/-- The header with another opcode. -/
def withOpc (h : Hdr) (o : Nat) : Hdr := BitVec.ofNat 256 (h.toNat / 32 * 32 + o % 32)

/-! ## Opcodes (Table 3.7) -/

def opNop : Nat := 0x00
def opRd : Nat := 0x01
def opRdv : Nat := 0x02
def opWr : Nat := 0x04
def opWrv : Nat := 0x05
def opWrp : Nat := 0x06
def opAcc : Nat := 0x08
def opAccx : Nat := 0x09
def opCntAdd : Nat := 0x10
def opCntWait : Nat := 0x11
def opCntRd : Nat := 0x12
def opFlgSet : Nat := 0x14
def opFlgClr : Nat := 0x15
def opFlgWait : Nat := 0x16
def opFlgTest : Nat := 0x17
def opRangeOpen : Nat := 0x18
def opRangeClose : Nat := 0x19
def opStreamOpen : Nat := 0x1A
def opStreamStep : Nat := 0x1B
def opStreamClose : Nat := 0x1C
def opInval : Nat := 0x1D
def opFence : Nat := 0x1E

/-- Defined opcodes. -/
def opDefined (o : Nat) : Bool :=
  [0x00, 0x01, 0x02, 0x04, 0x05, 0x06, 0x08, 0x09, 0x10, 0x11, 0x12, 0x14, 0x15, 0x16, 0x17, 0x18, 0x19, 0x1A, 0x1B,
    0x1C, 0x1D, 0x1E].contains o

def isMp (p : Nat) : Bool := decide (p < 4)
def isVp (p : Nat) : Bool := decide (4 ≤ p ∧ p < 8)
def isDp (p : Nat) : Bool := decide (8 ≤ p ∧ p < 10)
def isCp (p : Nat) : Bool := decide (p = 12)
/-- A port that carries requests: MP, VP, DP and CP bulk. -/
def isPartner (p : Nat) : Bool := decide (p < 10 ∨ p = 12)

/-- Ports an opcode may be issued on (Table 3.7). -/
def opOnPort (o p : Nat) : Bool :=
  isPartner p &&
  (if o = opAcc ∨ o = opAccx ∨ o = opRangeOpen ∨ o = opRangeClose ∨ o = opCntWait ∨ o = opFlgWait then !isCp p
   else if o = opStreamOpen ∨ o = opStreamStep ∨ o = opStreamClose then isMp p
   else true)

/-- A row read by `RD`, `RDV`. -/
def isRead (o : Nat) : Bool := decide (o = opRd ∨ o = opRdv)
/-- An opcode whose data follows as beats (R349). -/
def isWrite (o : Nat) : Bool := decide (o = opWr ∨ o = opWrv ∨ o = opWrp ∨ o = opAcc ∨ o = opAccx)
def isAcc (o : Nat) : Bool := decide (o = opAcc ∨ o = opAccx)
/-- A shape from the view table. -/
def isViewOp (o : Nat) : Bool := decide (o = opRdv ∨ o = opWrv ∨ o = opStreamOpen)
/-- An inline shape (R72). -/
def isInline (o : Nat) : Bool := decide (o = opRd ∨ o = opWr ∨ o = opWrp ∨ o = opAcc ∨ o = opAccx ∨ o = opInval)
/-- Counter, flag, range and stream operations (R150). -/
def isSync (o : Nat) : Bool := decide (opCntAdd ≤ o ∧ o ≤ opStreamClose)
def isWait (o : Nat) : Bool := decide (o = opCntWait ∨ o = opFlgWait)
/-- Answered on the read lane (R56). -/
def onReadLane (o : Nat) : Bool := isRead o || decide (o = opStreamStep)
/-- Uses `ADDR` as an address. -/
def usesAddr (o : Nat) : Bool := isRead o || isWrite o || decide (o = opRangeOpen ∨ o = opStreamOpen ∨ o = opInval)

/-- Bits of a field `[hi:lo]` as a mask of a header. -/
def hmask (hi lo : Nat) : Nat := (2 ^ (hi + 1 - lo) - 1) * 2 ^ lo

/-- Flags an opcode may carry (Table 3.6), by header bit. -/
def flagMask (o : Nat) (final : Bool) : Nat :=
  2 ^ 5
  + (if isWrite o then 2 ^ 6 else 0)
  + (if o = opCntAdd ∨ o = opFlgSet ∨ o = opFlgClr ∨ o = opRangeClose ∨ o = opFence ∨ (isWrite o ∧ final) then 2 ^ 7 else 0)
  + (if isWait o ∨ o = opCntRd ∨ o = opFlgTest ∨ o = opStreamStep then 2 ^ 8 else 0)
  + (if isAcc o then 2 ^ 9 else 0)
  + (if isRead o then 2 ^ 10 else 0)

/-- Bits of fields an opcode uses (Table 3.7), flags apart, with `RMT`, which step 3 judges (R50). -/
def fieldMask (o : Nat) (final rel : Bool) : Nat :=
  let adr := hmask 129 64
  let shape := adr + hmask 139 130 + hmask 155 140 + hmask 187 160
  let fin := if final then hmask 63 48 + hmask 207 192 + (if rel then hmask 12 11 else 0) else 0
  let dt := hmask 158 156 + 2 ^ 159
  hmask 4 0 + hmask 25 16 + hmask 39 32 + 2 ^ 13
  + (if o = opRd then shape + dt
     else if o = opRdv then adr + hmask 139 130 + dt
     else if o = opWr ∨ o = opWrp then shape + dt + fin
     else if o = opWrv then adr + hmask 139 130 + dt + fin
     else if isAcc o then shape + dt + fin + hmask 239 224 + hmask 249 240
     else if o = opCntAdd then hmask 63 48 + hmask 127 64 + hmask 12 11
     else if o = opCntWait then hmask 63 48 + hmask 127 64 + hmask 12 11 + 2 ^ 14 + hmask 44 40
     else if o = opFlgWait then hmask 63 48 + 2 ^ 15 + hmask 12 11 + 2 ^ 14 + hmask 44 40
     else if o = opCntRd ∨ o = opFlgSet ∨ o = opFlgClr ∨ o = opFlgTest then hmask 63 48 + hmask 12 11
     else if o = opRangeOpen then adr + hmask 156 130
     else if o = opRangeClose then hmask 55 48 + 2 ^ 15 + hmask 12 11
     else if o = opStreamOpen then adr + hmask 139 130 + hmask 158 156 + hmask 209 208 + hmask 215 210 + hmask 63 48
     else if o = opStreamStep then hmask 209 208 + hmask 127 64 + hmask 12 11
     else if o = opStreamClose then hmask 209 208
     else if o = opInval then shape
     else if o = opFence then hmask 12 11
     else 0)

/-- Delivery formats a transposed tile may use (R75). -/
def transposable (dfmt : Nat) : Bool := decide (1 ≤ dfmt ∧ dfmt ≤ 5)

/-- Step 2 of Table 4.5: the form of a header on a port (R50 to R53, R75, R184). -/
def formOk (p : Nat) (h : Hdr) : Bool :=
  let o := hOpc h
  let used := fieldMask o (hFinal h) (hRel h) + flagMask o (hFinal h)
  opDefined o && opOnPort o p
  && (h.toNat &&& (2 ^ 256 - 1 - (used % 2 ^ 256))) == 0
  && !(isDp p && isWait o && !hYield h)
  && !(isWrite o && hFinal h && hFadd h == 0)
  && (!hT h || (isMp p && (o == opRd || o == opRdv || o == opWr || o == opWrv)))
  && !(hRmt h && (hT h || hDfmt h == dMx))

/-! ## Link packets (Tables 9.5 and 9.9) -/

def kf (h : Pkt) (hi lo : Nat) : Nat := fld h.toNat hi lo

def kType (h : Pkt) : Nat := kf h 3 0
def kBit4 (h : Pkt) : Bool := bitAt h.toNat 4
def kRel (h : Pkt) : Bool := bitAt h.toNat 5
def kScope (h : Pkt) : Nat := kf h 7 6
def kSiid (h : Pkt) : Nat := kf h 22 8
def kDiid (h : Pkt) : Nat := kf h 37 23
def kSport (h : Pkt) : Nat := kf h 41 38
def kWin (h : Pkt) : Nat := kf h 49 42
def kGen (h : Pkt) : Nat := kf h 65 50
def kBseq (h : Pkt) : Nat := kf h 68 66
def kDfmt (h : Pkt) : Nat := kf h 71 69
def kOp (h : Pkt) : Nat := kf h 70 69
def kPtag (h : Pkt) : Nat := kf h 80 72
def kCode (h : Pkt) : Nat := kf h 84 81
def kOfs (h : Pkt) : Nat := kf h 111 85
def kRsid (h : Pkt) : Nat := kf h 100 85
def kSeg (h : Pkt) : Nat := kf h 120 112
def kDlen (h : Pkt) : Nat := kf h 127 121
def kRgn (h : Pkt) : Nat := kf h 45 38
def kLa (h : Pkt) : Nat := kf h 68 46
def kTtag (h : Pkt) : Nat := kf h 78 69
def kTcode (h : Pkt) : Nat := kf h 82 79
def kBlank (h : Pkt) : Bool := bitAt h.toNat 83

/-- A packet from its fields `(lo, value)`. -/
def mkPkt (fs : List (Nat × Nat)) : Pkt := BitVec.ofNat 128 (fs.foldl (fun a f => a + f.2 * 2 ^ f.1) 0)

/-- Reserved bits of a packet are 0 for its type (R190, R204). -/
def pktForm (h : Pkt) : Bool :=
  let t := kType h
  if t = 1 then kf h 84 81 == 0
  else if t = 2 then
    kf h 68 66 == 0 && kf h 71 71 == 0 && kf h 84 81 == 0 && kf h 127 101 == 0 && decide (kOp h < 3)
  else if t = 3 then kf h 7 4 == 0 && kf h 71 69 == 0 && kf h 127 85 == 0
  else if t = 8 then kf h 7 4 == 0 && kf h 127 79 == 0
  else if t = 9 then kf h 7 4 == 0 && kf h 127 83 == 0
  else if t = 10 then kf h 7 5 == 0 && kf h 127 79 == 0
  else if t = 11 then kf h 7 5 == 0 && kf h 127 84 == 0
  else false

/-! ## Views and rows (R72, R77, R80) -/

/-- A view snapshot, decoded. -/
structure ViewSnap where
  valid : Bool
  ndim : Nat
  rowlen : Nat
  cnt : List Nat
  str : List Int
  deriving DecidableEq, Repr

/-- Counts and strides of dimensions 1 to 4 of a snapshot, those at or above `ndim` acting as one (R77). -/
def snapOf (hdr s12 s34 : Word) : ViewSnap :=
  let n := wfld hdr 62 60
  let c (d v : Nat) : Nat := if d < n then v + 1 else 1
  let g (d v : Nat) : Int := if d < n then signedOf 28 v else 0
  { valid := bitAt hdr.toNat 63, ndim := n, rowlen := wfld hdr 55 40 + 1,
    cnt := [c 1 (wfld hdr 9 0), c 2 (wfld hdr 19 10), c 3 (wfld hdr 29 20), c 4 (wfld hdr 39 30)],
    str := [g 1 (wfld s12 27 0), g 2 (wfld s12 59 32), g 3 (wfld s34 27 0), g 4 (wfld s34 59 32)] }

/-- Row starts of one dimension around each given start: the dimension varies slowest. -/
def spread (n : Nat) (st : Int) (starts : List Int) : List Int :=
  (List.range n).flatMap fun (i : Nat) => starts.map fun a => a + i * st

/-- Row word addresses of a view from a base, dimension 1 fastest (R80); they are signed sums. -/
def viewRows (v : ViewSnap) (base : Int) : List Int :=
  ((v.cnt.zip v.str).foldl (fun acc d => spread d.1 d.2 acc) [base])

/-- Row word addresses of step `i` of a stream: dimension `ndim - 1` fixed at `i` (R80). -/
def stepRows (v : ViewSnap) (base : Int) (i : Nat) : List Int :=
  let d := v.ndim - 2
  let st := v.str.getD d 0
  viewRows { v with cnt := v.cnt.set d 1 } (base + i * st)

/-- Number of steps of a stream. -/
def stepCount (v : ViewSnap) : Nat := v.cnt.getD (v.ndim - 2) 1

/-- Row word addresses of an inline shape (R72). -/
def inlineRows (h : Hdr) : List Int :=
  let base : Int := fld (hAddr h) 26 0
  let st := signedOf 28 (hStride h)
  (List.range (hRows h + 1)).map fun (r : Nat) => base + r * st

/-! ## Interleave (R29, R36) -/

/-- Logical bank and line in bank of a line address in SPREAD mode, for a slice count (R29). -/
def spreadPlace (slices la : Nat) : Nat × Nat :=
  let n := 64 * slices
  let ball := la % n
  let ix := la / n
  let g := fld ix 5 0 ^^^ fld ix 11 6 ^^^ fld ix 13 12
  let t := fld ix 2 0 ^^^ fld ix 5 3 ^^^ fld ix 8 6 ^^^ fld ix 11 9 ^^^ fld ix 13 12
  let b := (ball % 64) ^^^ g
  let sl := (ball / 64 + t) % slices
  (64 * sl + b, ix)

/-- Logical bank and line in bank of a line of a GROUP region with first line `l0` and `r` bands (R36). -/
def groupPlace (slices l0 r la : Nat) : Nat × Nat :=
  let n := 64 * slices
  let o := la - l0
  let k := o / (16 * r)
  let j := o % (16 * r)
  let ix := l0 / n + j / 16
  let f := fld ix 3 0 ^^^ fld ix 7 4 ^^^ fld ix 11 8 ^^^ fld ix 13 12
  (16 * k + ((j % 16) ^^^ f), ix)

/-- The line address that SPREAD mode places at line `ix` of a logical bank: `spreadPlace` undone. -/
def spreadLine (slices lb ix : Nat) : Nat :=
  let g := fld ix 5 0 ^^^ fld ix 11 6 ^^^ fld ix 13 12
  let t := fld ix 2 0 ^^^ fld ix 5 3 ^^^ fld ix 8 6 ^^^ fld ix 11 9 ^^^ fld ix 13 12
  64 * slices * ix + 64 * ((lb / 64 + 8 * slices - t) % slices) + ((lb % 64) ^^^ g)

/-- The line address that a GROUP region places at line `ix` of a logical bank: `groupPlace` undone. -/
def groupLine (slices l0 r lb ix : Nat) : Nat :=
  let f := fld ix 3 0 ^^^ fld ix 7 4 ^^^ fld ix 11 8 ^^^ fld ix 13 12
  l0 + lb / 16 * (16 * r) + 16 * (ix - l0 / (64 * slices)) + ((lb % 16) ^^^ f)

/-- Bank group of a logical bank, and its bank there. -/
def groupOf (lb : Nat) : Nat := lb / 16
def bankOf (lb : Nat) : Nat := lb % 16
def sliceOf (lb : Nat) : Nat := lb / 64

/-! ## Widths (Table 3.2) -/

def widthR (p : Nat) : Nat := if p < 4 then 4096 else if p < 8 then 512 else if p < 10 then 256 else 128
def widthW (p : Nat) : Nat := if p < 4 then 2048 else if p < 8 then 512 else if p < 10 then 256 else 128
/-- Write-data buffer in bytes (Table 3.9). -/
def wdBuffer (p : Nat) : Nat := if p < 4 then 65536 else if p < 8 then 32768 else if p < 10 then 16384 else 1024

end Sys2Proof.Machine
end

