-- ==== Sys2Proof/Machine/Ops.lean ====
section
/-! DEFINITION. The named operations over the block's registers, tables, memory and pins that the commands share. -/
namespace Sys2Proof.Machine

/-! ## Registers -/

/-- The stored value of the register at an offset. -/
def State.reg (s : State) (o : Nat) : Word := (tfind s.regs o).getD (regReset o)

/-- The block sets a stored register. -/
def State.setReg (s : State) (o : Nat) (v : Word) : State := { s with regs := tset s.regs o v }

/-- A field of a stored register. -/
def State.field (s : State) (o hi lo : Nat) : Nat := wfld (s.reg o) hi lo

/-- A bit of a stored register. -/
def State.bit (s : State) (o i : Nat) : Bool := bitAt (s.reg o).toNat i

/-- The block sets a field of a register. -/
def State.setFld (s : State) (o hi lo v : Nat) : State := s.setReg o (wput (s.reg o) hi lo v)

/-- The block sets bit `i` of a register, a sticky bit above all (R9). -/
def State.setBit (s : State) (o i : Nat) : State := s.setFld o i i 1

/-- A counting field rises by `n`, saturating at all ones. -/
def State.bump (s : State) (o hi lo n : Nat) : State := s.setReg o (wbump (s.reg o) hi lo n)

/-- A highest-value field takes `v` where it is higher, saturating at all ones. -/
def State.raise (s : State) (o hi lo v : Nat) : State :=
  let v := min v (2 ^ (hi + 1 - lo) - 1)
  if s.field o hi lo < v then s.setFld o hi lo v else s

/-- A field of a table whose registers reset to 0 (Tables 2.3 to 2.6, 6.5, 7.1 to 7.10, 9.1, 9.2). -/
def State.tab (s : State) (o hi lo : Nat) : Nat := wfld ((tfind s.regs o).getD 0) hi lo

/-! ## Presence and build -/

/-- Slices, logical banks (N of §2.1), groups, physical banks of the build. -/
def State.nBanks (s : State) : Nat := 64 * s.build.slices
def State.nGroups (s : State) : Nat := 4 * s.build.slices
def State.nPhys (s : State) : Nat := 66 * s.build.slices

/-- Port p is present; CP always is (Table 0.2). -/
def State.hasPort (s : State) (p : Nat) : Bool := decide (p = 12) || (decide (p < 12) && bitAt s.build.ports p)

/-- A port that is present and carries requests. -/
def State.hasPartner (s : State) (p : Nat) : Bool := s.hasPort p && isPartner p

/-- `BOOT.STAT.STATE` (Table 12.1). -/
def State.boot (s : State) : Nat := s.field oBootStat 63 60

def bootLoad : Nat := 1
def bootCheck : Nat := 2
def bootFail : Nat := 3
def bootInit : Nat := 4
def bootReady : Nat := 5

/-! ## Pins and unique numbers -/

/-- The block drives something (log 8). -/
def State.drive (s : State) (o : Out) : State := { s with driven := o :: s.driven }

/-- A new unique number. -/
def State.fresh (s : State) : State := { s with uid := s.uid + 1 }

/-! ## Arrays of the state -/

def State.port (s : State) (p : Nat) : Port := (tfind s.ports p).getD (Port.fresh p)
def State.setPort (s : State) (p : Nat) (q : Port) : State := { s with ports := tset s.ports p q }
def State.modPort (s : State) (p : Nat) (f : Port → Port) : State := s.setPort p (f (s.port p))

def State.group (s : State) (g : Nat) : Group := (tfind s.groups g).getD Group.fresh
def State.setGroup (s : State) (g : Nat) (q : Group) : State := { s with groups := tset s.groups g q }
def State.modGroup (s : State) (g : Nat) (f : Group → Group) : State := s.setGroup g (f (s.group g))

def State.slice (s : State) (i : Nat) : Slice := (tfind s.slices i).getD Slice.fresh
def State.setSlice (s : State) (i : Nat) (q : Slice) : State := { s with slices := tset s.slices i q }
def State.modSlice (s : State) (i : Nat) (f : Slice → Slice) : State := s.setSlice i (f (s.slice i))

def State.dom (s : State) (d : Nat) : Dom := (tfind s.pw.doms d).getD Dom.fresh
def State.setDom (s : State) (d : Nat) (q : Dom) : State := { s with pw := { s.pw with doms := tset s.pw.doms d q } }
def State.modDom (s : State) (d : Nat) (f : Dom → Dom) : State := s.setDom d (f (s.dom d))

def Port.stream (q : Port) (k : Nat) : Stream := (tfind q.streams k).getD Stream.closed
def Port.setStream (q : Port) (k : Nat) (t : Stream) : Port := { q with streams := tset q.streams k t }

/-- The request of a port under a unique number. -/
def Port.req (q : Port) (uid : Nat) : Option Req := q.reqs.find? fun r => r.uid == uid

/-- The request under a unique number changed. -/
def Port.modReq (q : Port) (uid : Nat) (f : Req → Req) : Port :=
  { q with reqs := q.reqs.map fun r => if r.uid == uid then f r else r }

def State.modReq (s : State) (p uid : Nat) (f : Req → Req) : State := s.modPort p fun q => q.modReq uid f

/-- Applies `f` to each element of a list in turn. -/
def foldState {α : Type} (f : State → α → State) (l : List α) (s : State) : State := l.foldl f s

/-! ## Events and wake lines (R62, R63, R65) -/

/-- Queues an event on EVT: none but a `READY` is ever dropped. -/
def State.event (s : State) (p code ctx tag : Nat) (info : Word) : State :=
  s.modPort p fun q => { q with evtq := q.evtq ++ [⟨code, ctx, tag, info, none⟩] }

/-- A registered wait ends: its entry is free (R149). -/
def State.freeWait (s : State) (u : Nat) : State := { s with waiters := s.waiters.filter fun w => w.uid != u }

/-- Queues the `READY` of a registered wait, whose entry stays until the event is driven. One that finds 64 events waiting is
dropped, with `EVT_OVF` set, and its entry freed (log 56). -/
def State.ready (s : State) (w : Waiter) (info : Word) : State :=
  if 64 ≤ (s.port w.port).evtq.length then
    ((s.modPort w.port fun q => { q with evtOvf := true }).setBit (oPErr w.port) 3).freeWait w.uid
  else
    let s := s.modPort w.port fun q => { q with evtq := q.evtq ++ [⟨0, w.ctx, w.tag, info, some w.uid⟩] }
    { s with waiters := s.waiters.map fun x => if x.uid == w.uid then { x with queued := true } else x }

/-- Drives an event, with which the entry of the wait it releases is freed. -/
def State.driveEvt (p : Nat) (s : State) (e : Evt) : State :=
  let s := s.drive (.evt p e.code e.ctx e.tag e.info)
  match e.wait with
  | some u => s.freeWait u
  | none => s

/-- Drives the oldest queued event. -/
def State.sendEvent (s : State) (p : Nat) : State :=
  match (s.port p).evtq with
  | [] => s
  | e :: es => State.driveEvt p (s.modPort p fun q => { q with evtq := es }) e

/-- Drives every queued event: a `FENCE` or `UNFENCE` precedes the responses it announces (Table 3.10). -/
def State.sendEvents (s : State) (p : Nat) : State :=
  foldState (State.driveEvt p) (s.port p).evtq (s.modPort p fun q => { q with evtq := [] })

/-! ## Credits (R59) -/

/-- Returns a request credit. -/
def State.retReq (s : State) (p : Nat) : State :=
  (s.modPort p fun q => { q with reqCrd := q.reqCrd + 1 }).drive (.reqCrd p)

/-- Returns a write-data credit. -/
def State.retWd (s : State) (p : Nat) : State :=
  (s.modPort p fun q => { q with wdCrd := q.wdCrd + 1 }).drive (.wdCrd p)

/-! ## Regions (§2.4 to §2.8) -/

/-- A region's entry as the chucks use it. -/
def State.rgnValid (s : State) (n : Nat) : Bool := s.tab (oRgn n 0) 63 63 == 1
def State.rgnLock (s : State) (n : Nat) : Bool := s.tab (oRgn n 0) 62 62 == 1
def State.rgnBase (s : State) (n : Nat) : Nat := s.tab (oRgn n 0) 13 0
def State.rgnSize (s : State) (n : Nat) : Nat := s.tab (oRgn n 0) 46 32
def State.rgnFmt (s : State) (n : Nat) : Nat := s.tab (oRgn n 8) 3 0
def State.rgnGroup (s : State) (n : Nat) : Bool := s.tab (oRgn n 8) 4 4 == 1
def State.rgnTwin (s : State) (n : Nat) : Bool := s.tab (oRgn n 8) 5 5 == 1
def State.rgnRetain (s : State) (n : Nat) : Nat := s.tab (oRgn n 8) 7 6
def State.rgnRnd (s : State) (n : Nat) : Nat := s.tab (oRgn n 8) 9 8
def State.rgnAnchor (s : State) (n : Nat) : Int := anchorOf (s.tab (oRgn n 8) 23 16)
def State.rgnKey (s : State) (n : Nat) : Nat := s.tab (oRgn n 8) 31 24
def State.rgnPorts (s : State) (n : Nat) : Nat := s.tab (oRgn n 8) 60 48
def State.rgnSeed (s : State) (n : Nat) : Nat := s.tab (oRgn n 16) 31 0
def State.rgnScaleOfs (s : State) (n : Nat) : Nat := s.tab (oRgn n 16) 45 32
def State.inflight (s : State) (n : Nat) : Nat := s.tab (oRgn n 24) 15 0

/-- A word address lies in the span of region n. -/
def State.inRgn (s : State) (n wa : Nat) : Bool :=
  s.rgnValid n && decide (s.rgnBase n * 8192 ≤ wa ∧ wa < (s.rgnBase n + s.rgnSize n) * 8192)

/-- The valid region that contains a word address (R32); regions do not overlap. -/
def State.regionAt (s : State) (wa : Nat) : Option Nat :=
  if wa / 16 < 16384 * s.nBanks then (List.range 256).find? fun n => s.inRgn n wa else none

/-- The bytes partners may address in a region: the element area in an MX region (R34). -/
def State.rgnEnd (s : State) (n : Nat) : Nat :=
  (s.rgnBase n + (if isMx (s.rgnFmt n) then s.rgnScaleOfs n else s.rgnSize n)) * 65536

/-- First byte of the scale area (R84). -/
def State.scaleBase (s : State) (n : Nat) : Nat := (s.rgnBase n + s.rgnScaleOfs n) * 65536

/-- Logical bank and line of a line address of region n (R29, R36). -/
def State.place (s : State) (n la : Nat) : Nat × Nat :=
  if s.rgnGroup n then groupPlace s.build.slices (s.rgnBase n * 512) (s.rgnSize n * 512 / s.nBanks) la
  else spreadPlace s.build.slices la

/-- A request or stream takes or ends its hold on a region (R38). -/
def State.holdRgn (s : State) (n : Nat) : State := s.setReg (oRgn n 24) (wbump (s.reg (oRgn n 24)) 15 0 1)
def State.dropRgn (s : State) (n : Nat) : State := s.setFld (oRgn n 24) 15 0 (s.inflight n - 1)

/-- Lines `a` to `b`, line addresses, of region n as row lines. -/
def State.lineRun (s : State) (n : Nat) (scale : Bool) (a b : Nat) : List RowLine :=
  (List.range (b + 1 - a)).map fun (i : Nat) =>
    let pl := s.place n (a + i)
    { la := a + i, lb := pl.1, ix := pl.2, scale := scale, st := .todo }

/-- First and last MX block a run of bytes touches (R84). -/
def State.blocksOf (s : State) (n byte len : Nat) : Nat × Nat :=
  let bb := mxBlockBytes (s.rgnFmt n)
  let o := byte - s.rgnBase n * 65536
  (o / bb, (o + len - 1) / bb)

/-- Lines of a row of `len` bytes at a byte address: element lines, then in an MX region its scale lines (R84). -/
def State.rowLines (s : State) (n byte len : Nat) : List RowLine :=
  s.lineRun n false (byte / 128) ((byte + len - 1) / 128) ++
  (if isMx (s.rgnFmt n) then
    let k := s.blocksOf n byte len
    s.lineRun n true ((s.scaleBase n + k.1) / 128) ((s.scaleBase n + k.2) / 128)
   else [])

/-! ## Contexts (§7.1, §7.4) -/

/-- The slot that holds a resident context. -/
def State.slotOf (s : State) (c : Nat) : Option Nat :=
  (List.range 64).find? fun i => s.tab (oCtxt i 0) 63 63 == 1 && s.tab (oCtxt i 0) 57 48 == c

/-- A context is bound (R152). -/
def State.isBound (s : State) (c : Nat) : Bool := (tfind s.bound c).isSome

/-- The context bound to a window (Table 9.1). -/
def State.winCtx (s : State) (w : Nat) : Nat := s.tab (oWin w) 57 48

def State.boundOf (s : State) (c : Nat) : Bound := (tfind s.bound c).getD Bound.none

/-- Fields of a resident slot. -/
def State.ccnt (s : State) (i : Nat) : Nat := s.tab (oCtxt i 8) 28 16
def State.cbase (s : State) (i : Nat) : Nat := s.tab (oCtxt i 8) 43 32
def State.rbase (s : State) (i : Nat) : Nat := s.tab (oCtxt i 8) 14 8
def State.rcnt (s : State) (i : Nat) : Nat := s.tab (oCtxt i 8) 7 0
def State.fbase (s : State) (i : Nat) : Nat := s.tab (oCtxt i 16) 45 32
def State.fcnt (s : State) (i : Nat) : Nat := s.tab (oCtxt i 16) 30 16

/-- What a virtual sync ID names (R143). -/
inductive SyncRef where
  | local (phys : Nat)
  | routed (r : Nat)
  | bad
  deriving DecidableEq, Repr

/-- Translation of a `SID` through slot `i` (R143); `routable` for `CNT_ADD`, `FLG_SET` and `FLG_CLR`. -/
def State.translate (s : State) (i : Nat) (flag routable : Bool) (v : Nat) : SyncRef :=
  let n := if flag then s.fcnt i else s.ccnt i
  let base := if flag then s.fbase i else s.cbase i
  if v < n then .local (base + v)
  else if !routable ∨ s.rcnt i ≤ v - n then .bad
  else
    let r := s.rbase i + (v - n)
    if s.hasPort 10 && s.tab (oRoute r) 63 63 == 1 && s.tab (oRoute r) 62 62 == b2n flag then .routed r else .bad

def State.ctr (s : State) (n : Nat) : Ctr := (tfind s.counters n).getD ⟨0, none⟩
def State.flg (s : State) (n : Nat) : Flg := (tfind s.flags n).getD ⟨false, none⟩

/-- The epoch of a slot's context (R145). -/
def State.epoch (s : State) (i : Nat) : Nat :=
  let e := s.tab (oCtxt i 0) 31 0
  if s.tab (oCtxt i 16) 12 12 == 1 then (e + (s.ctr (s.cbase i + s.tab (oCtxt i 16) 11 0)).val.toNat) % 2 ^ 32 else e

/-- The epoch of a bound context, resident or not (R145). -/
def State.epochOf (s : State) (c : Nat) : Nat :=
  match s.slotOf c with
  | some i => s.epoch i
  | none =>
    let b := s.boundOf c
    if b.ecen then (b.epoch + ((tfind b.ctrs b.ectr).getD ⟨0, none⟩).val.toNat) % 2 ^ 32 else b.epoch

/-- Protection (R37): key, permission bit (32 read, 33 write, 34 accumulate) and port. -/
def State.permitted (s : State) (n slot p perm : Nat) : Bool :=
  let key := s.rgnKey n
  let ks := s.tab (oCtxt slot 24) 31 0
  (key == 0 || [fld ks 7 0, fld ks 15 8, fld ks 23 16, fld ks 31 24].contains key)
  && s.tab (oRgn n 8) perm perm == 1 && bitAt (s.rgnPorts n) p

/-! ## Line images -/

/-- Bytes of a line image of Table 10.6, in order, and its place in `mem` or in `save`. -/
def imgBytes : Nat := 149

/-- Where a line lives: an array line or a line of a slice's save buffer (R220). -/
structure Home where
  save : Bool
  base : Nat
  pb : Nat
  ix : Nat
  deriving DecidableEq, Repr

/-- First cell of a line of a physical bank. -/
def arrBase (pb ix : Nat) : Nat := 256 * (16384 * pb + ix)

def arrHome (pb ix : Nat) : Home := ⟨false, arrBase pb ix, pb, ix⟩

/-- A line as its array holds it. -/
structure Image where
  data : List Byte
  chk : List Byte
  outer : Nat
  valid : Bool
  poison : Bool
  deriving DecidableEq, Repr

/-- Byte `i` of a line image; one that nothing has written since its array was powered up is free (R41, R232), its valid
and poison bits apart, which are clear. -/
def State.imgByte (s : State) (h : Home) (i : Nat) : Byte :=
  match tfind (if h.save then s.save else s.mem) (h.base + i) with
  | some b => b
  | none => if i = 148 then 0 else Config.powerUpByte (tget 0 s.powerUps (h.pb / 66)) h.pb h.ix i

/-- `n` bytes of a line image from byte `i`. -/
def State.imgRun (s : State) (h : Home) (i n : Nat) : List Byte := (List.range n).map fun (k : Nat) => s.imgByte h (i + k)

/-- The image of a line. -/
def State.image (s : State) (h : Home) : Image :=
  let fl := (s.imgByte h 148).toNat
  { data := s.imgRun h 0 128, chk := s.imgRun h 128 16, outer := natLE (s.imgRun h 144 4), valid := bitAt fl 0,
    poison := bitAt fl 1 }

/-- Stores a byte: the flag byte of a line at 0 is what an unlisted one reads as, and is not listed. -/
def putCell (m : Table Byte) (a : Nat) (b : Byte) : Table Byte := if a % 256 = 148 ∧ b = 0 then tdel m a else tset m a b

/-- Writes bytes from a cell on. -/
def writeRun (m : Table Byte) (a : Nat) : List Byte → Table Byte
  | [] => m
  | b :: bs => writeRun (putCell m a b) (a + 1) bs

/-- The canonical form of the memory: addresses strictly rising, no entry equal to what an unlisted address reads as. -/
def Memory.wf (m : List Host.Cell) : Bool := trising m && m.all fun c => !(c.1 % 256 == 148 && c.2 == 0)

/-- The bytes of an image. -/
def Image.bytes (im : Image) : List Byte :=
  im.data.take 128 ++ im.chk.take 16 ++ bytesLE 4 im.outer ++ [BitVec.ofNat 8 (b2n im.valid + 2 * b2n im.poison)]

/-- Stores a line image. -/
def State.setImage (s : State) (h : Home) (im : Image) : State :=
  if h.save then { s with save := writeRun s.save h.base im.bytes } else { s with mem := writeRun s.mem h.base im.bytes }

/-- Sets the valid and poison bits of a line, through the valid array (§2.8, R217). -/
def State.setMeta (s : State) (h : Home) (valid poison : Bool) : State :=
  let b := BitVec.ofNat 8 (b2n valid + 2 * b2n poison)
  if h.save then { s with save := putCell s.save (h.base + 148) b } else { s with mem := putCell s.mem (h.base + 148) b }

/-- A line with fresh codes (Table 10.1). -/
def freshImage (data : List Byte) (la : Nat) (poison : Bool) : Image :=
  { data := data, chk := checkBytes data 16, outer := outerCode data la, valid := true, poison := poison }

/-! ## Banks (§2.3, R220, R228) -/

/-- `INT.REMAP[LB].STATE` is MIGRATING, DEAD. -/
def State.migrating (s : State) (lb : Nat) : Bool := s.field (oRemap lb) 17 16 == 1
def State.dead (s : State) (lb : Nat) : Bool := s.field (oRemap lb) 17 16 == 2

/-- The physical bank that serves a logical bank (R30), and the spare of its dual writes. -/
def State.physOf (s : State) (lb : Nat) : Nat := 66 * sliceOf lb + s.field (oRemap lb) 6 0
def State.dualOf (s : State) (lb : Nat) : Nat := 66 * sliceOf lb + s.field (oRemap lb) 14 8

/-- A line of a logical bank is redirected to its slice's save buffer (R219, R220). -/
def State.redirected (s : State) (lb ix : Nat) : Bool :=
  match (s.slice (sliceOf lb)).shaving with
  | some sh => decide (sh.lb = lb ∧ sh.ix0 + sh.lo ≤ ix ∧ ix < sh.ix0 + sh.hi)
  | none => false

/-- Where a live access to a line of a logical bank goes. -/
def State.home (s : State) (lb ix : Nat) : Home :=
  if s.redirected lb ix then ⟨true, arrBase (sliceOf lb) (ix % 128), s.physOf lb, ix⟩ else arrHome (s.physOf lb) ix

/-! ## Power state (§11.8) -/

/-- `PWR.STAT.STATE`: 0 to 3. -/
def State.ps (s : State) : Nat := s.field oPwrStat 63 62

/-- Chucks take requests: fabric clock running in PS0. -/
def State.awake (s : State) : Bool := s.ps == 0

/-- A slice is held by a recovery or a slice fault (Table 4.5 step 13). -/
def State.held (s : State) (sl : Nat) : Bool := (s.slice sl).hold

end Sys2Proof.Machine
end

