-- ==== Sys2Proof/Machine/Findings.lean ====
section
/-! DEFINITION. Keep-domain records, the error log and its counters, and what a read of a line finds (§10.2, §10.8,
§13.9). -/
namespace Sys2Proof.Machine

/-! ## Keep domain (Table 13.7) -/

/-- Secen has been started: `STATE` is INIT or READY. -/
def State.loaded (s : State) : Bool := s.boot == bootInit || s.boot == bootReady

/-- Control core `k` performs its duties (Table 1.4): it has not stopped, and no hang of it awaits a warm recovery (R23, R24). -/
def State.coreRuns (s : State) (k : Nat) : Bool := s.loaded && !bitAt (s.fw.stopped ||| s.fw.hung) k

/-- Firmware answers commands: CC0 runs, and no core's hang awaits a warm recovery (R24, R277). -/
def State.fwRuns (s : State) : Bool := s.coreRuns 0 && s.fw.hung == 0

/-- A firmware write of keep register i, counted in `KEEP.HDR.WSEQ`. -/
def State.keepWrite (s : State) (i : Nat) (v : Word) : State :=
  let s := s.setReg (oKeep i) v
  s.setFld (oKeep 0) 31 0 (s.field (oKeep 0) 31 0 + 1)

/-- Run minutes (`KEEP.RUN.MINUTES`). -/
def State.minutes (s : State) : Nat := s.field (oKeep 27) 31 0

/-- Enters a finding in the error history, a ring of 31 entries (R234, R303). -/
def State.keepEvent (s : State) (cls pb ix : Nat) : State :=
  let j := s.field (oKeep 32) 36 32
  let s := s.keepWrite (33 + j) (BitVec.ofNat 64 (cls * 2 ^ 61 + pb * 2 ^ 51 + ix * 2 ^ 37 + s.minutes))
  let total := min (s.field (oKeep 32) 31 0 + 1) (2 ^ 32 - 1)
  s.keepWrite 32 (BitVec.ofNat 64 ((if j ≥ 30 then 0 else j + 1) * 2 ^ 32 + total))

/-- A free value is taken (log 9). -/
def State.takeFree (s : State) : State := { s with free := s.free + 1 }

/-- The words of a fault record: the record before it moves to W3 (Table 13.7). -/
def State.faultWords (s : State) (w : Nat → Word → State → State) (kind port sl ctx detail : Nat) : State :=
  let prev := s.reg (oKeep 28)
  let w0 := 2 ^ 63 + kind * 2 ^ 58 + port * 2 ^ 54 + sl * 2 ^ 50 + ctx * 2 ^ 40 + s.minutes
  s.takeFree |> w 31 prev |> w 30 (BitVec.ofNat 64 detail) |> w 29 (Config.ftimeNow s.free) |> w 28 (BitVec.ofNat 64 w0)

/-- The core whose duty the record of a kind is (Table 1.4): CC1 for a thermal trip, CC2 for a DEAD bank, else CC0. -/
def faultCore (kind : Nat) : Nat := if kind = 9 then 1 else if kind = 8 then 2 else 0

/-- Firmware writes the fault record, while the core whose duty it is runs (R23, R303). -/
def State.keepFault (s : State) (kind port sl ctx detail : Nat) : State :=
  if s.coreRuns (faultCore kind) then s.faultWords (fun i v t => t.keepWrite i v) kind port sl ctx detail else s

/-! ## Error log (R234, R235) -/

/-- W0 and W1 of an entry (Table 10.8). -/
def Finding.w0 (f : Finding) : Word :=
  BitVec.ofNat 64 (2 ^ 63 + f.cls * 2 ^ 60 + f.agent * 2 ^ 56 + f.pb * 2 ^ 46 + f.ix * 2 ^ 32 + f.syn * 2 ^ 24
    + f.word * 2 ^ 20 + f.count)

def Finding.w1 (f : Finding) : Word :=
  BitVec.ofNat 64 ((match f.la with | some a => a * 2 ^ 41 + 2 ^ 40 | none => 0) + f.time)

/-- Two findings that share an entry: class, physical bank, line. -/
def Finding.same (f g : Finding) : Bool := f.cls == g.cls && f.pb == g.pb && f.ix == g.ix

/-- Queues a finding, merges it, or drops it; the first of a class other than CE is captured, and CC2 copies classes
UE_IN, UE_OUT, ACCESS, RETIRE and DEAD to the keep domain. `TIME` is `FTIME` at that moment, a free value (log 10). -/
def State.finding (s : State) (cls agent pb ix syn word : Nat) (la : Option Nat) : State :=
  let f : Finding := { cls := cls, agent := agent, pb := pb, ix := ix, syn := syn % 256, word := word, count := 1, la := la,
                       time := (Config.ftimeNow s.free).toNat % 2 ^ 40 }
  if s.elog.any fun g => g.same f then
    { s with elog := s.elog.map fun g => if g.same f then { g with count := min (g.count + 1) 0xFFFF } else g }
  else if 64 ≤ s.elog.length then (s.bump oElogStat 63 32 1).setBit oIntErr 4
  else
    let s := { s.takeFree with elog := s.elog ++ [f] }
    let s := if cls ≠ 0 ∧ !s.bit oFirstW0 63 then (s.setReg oFirstW0 f.w0).setReg oFirstW1 f.w1 else s
    if (cls == 1 || cls == 2 || cls ≥ 5) && s.coreRuns 2 then s.keepEvent cls pb ix else s

/-! ## Reading a line (R215) -/

/-- What a read of a line finds (Table 10.2). -/
inductive Judged where
  | blank
  | poisoned
  | ueIn (word syn : Nat)
  | ueOut
  | good (data : List Byte) (fixed : List (Nat × Nat))
  deriving DecidableEq, Repr

/-- The first row of Table 10.2 that applies to a line image at a line address. -/
def judge (im : Image) (la : Nat) : Judged :=
  if !im.valid then .blank
  else if im.poison then .poisoned
  else
    let r := innerLine 0 16 im.data im.chk
    match r.bad with
    | some (w, syn) => .ueIn w syn
    | none => if outerCode r.data la ≠ im.outer then .ueOut else .good r.data r.fixed

/-- The region and line address kept at line `ix` of a logical bank: those of the valid region whose span places it there. -/
def State.lineAt (s : State) (lb ix : Nat) : Option (Nat × Nat) :=
  (List.range 256).findSome? fun n =>
    if !s.rgnValid n then none
    else
      let l0 := s.rgnBase n * 512
      let size := s.rgnSize n * 512
      let la := if s.rgnGroup n then groupLine s.build.slices l0 (size / s.nBanks) lb ix else spreadLine s.build.slices lb ix
      if l0 ≤ la ∧ la < l0 + size ∧ s.place n la = (lb, ix) then some (n, la) else none

/-- What the copy read of the background test or of a migration finds (Table 10.1): the outer code is checked where a valid
region gives the line its address, and carried unchecked where none does (log 54). -/
def judgeCopy (im : Image) (la : Option Nat) : Judged :=
  match la with
  | some la => judge im la
  | none =>
    if !im.valid then .blank
    else if im.poison then .poisoned
    else
      let r := innerLine 0 16 im.data im.chk
      match r.bad with
      | some (w, syn) => .ueIn w syn
      | none => .good r.data r.fixed

/-- The image a copy stores: data corrected where it can be, with fresh inner codes and the outer code carried; poisoned where
the line was uncorrectable and no twin has a copy (R214, R217, R219). -/
def copyImage (im : Image) (j : Judged) (twin : Bool) : Image :=
  let fresh (d : List Byte) (p : Bool) : Image := { im with data := d, chk := checkBytes d 16, poison := p }
  match j with
  | .blank => im
  | .good d _ => fresh d im.poison
  | .poisoned => fresh im.data true
  | .ueIn _ _ => fresh (innerLine 0 16 im.data im.chk).data (!twin)
  | .ueOut => fresh (innerLine 0 16 im.data im.chk).data (!twin)

/-- 128 zero bytes. -/
def zeroLine : List Byte := List.replicate 128 0

/-- The data of a line that can be read; none for an uncorrectable or poisoned line. -/
def Judged.data? : Judged → Option (List Byte)
  | .blank => some zeroLine
  | .good d _ => some d
  | _ => none

/-- Records what a read found: log, counters, sticky bits (R215, R234, R236). -/
def State.record (s : State) (agent : Nat) (h : Home) (la : Option Nat) (j : Judged) : State :=
  let sl := h.pb / 66
  match j with
  | .blank => s
  | .poisoned => ((s.finding 3 agent h.pb h.ix 0 0 la).bump (oUe sl) 47 32 1).setBit oIntErr 3
  | .ueIn w syn => ((s.finding 1 agent h.pb h.ix syn w la).bump (oUe sl) 15 0 1).setBit oIntErr 1
  | .ueOut => ((s.finding 2 agent h.pb h.ix 0 0 la).bump (oUe sl) 31 16 1).setBit oIntErr 2
  | .good _ fixed =>
    foldState (fun s (f : Nat × Nat) =>
      (((s.finding 0 agent h.pb h.ix f.2 f.1 la).bump (oCe sl) 47 0 1).bump (oBankCe (h.pb / 4))
        (16 * (h.pb % 4) + 15) (16 * (h.pb % 4)) 1).setBit oIntErr 0) fixed s

/-- A read of a line by an agent: the finding is recorded, and an uncorrectable error outside a twin region poisons the
line (R217). -/
def State.readLine (s : State) (agent : Nat) (h : Home) (la : Nat) (laKnown twin : Bool) : State × Judged :=
  let j := judge (s.image h) la
  let s := s.record agent h (if laKnown then some la else none) j
  match j with
  | .ueIn _ _ => (if twin then s else s.setMeta h true true, j)
  | .ueOut => (if twin then s else s.setMeta h true true, j)
  | _ => (s, j)

/-! ## Write notices (R17, R131) -/

/-- A line a stream holds or has in flight becomes absent: to be fetched again. -/
def squashRow (la : Nat) (w : Row) : Row :=
  { w with lines := w.lines.map fun l => if l.la == la && l.st != .todo then { l with st := .todo } else l }

/-- Lines of a stream at a line address that are held or in flight. -/
def Stream.hits (t : Stream) (la : Nat) : Nat :=
  ((t.fetched.flatten.map fun w => (w.lines.filter fun l => l.la == la && l.st != .todo).length)).foldl (· + ·) 0

/-- A write notice at the trackers of one MP (R131). -/
def State.noticePort (s : State) (la p : Nat) : State :=
  foldState (fun s k =>
    let t := (s.port p).stream k
    let n := t.hits la
    if n = 0 then s
    else (s.modPort p fun q => q.setStream k { t with fetched := t.fetched.map fun st => st.map (squashRow la) }).bump
      (oStrmSq p) 47 0 n) [0, 1, 2, 3] s

/-- The write notice of a line: stream trackers squash it (R131), and a repair under way learns of it (R208). -/
def State.notice (s : State) (la : Nat) : State :=
  let s := foldState (fun s p => if s.hasPort p then s.noticePort la p else s) [0, 1, 2, 3] s
  { s with tp := { s.tp with await := s.tp.await.map fun w => if w.fetch && w.la == la then { w with noticed := true } else w } }

end Sys2Proof.Machine
end

