-- ==== Sys2Proof/Machine/Cmds.lean ====
section
/-! DEFINITION. The command and reply windows (§12.2, §12.3): which commands wait, lanes, the general checks of Table 12.8,
replies and `CMD.DONE`. -/
namespace Sys2Proof.Machine

def opcEcho : Nat := 0x01
def opcGetInfo : Nat := 0x02
def opcFwInfo : Nat := 0x03
def opcRegionDefine : Nat := 0x10
def opcRegionDelete : Nat := 0x11
def opcRegionClear : Nat := 0x12
def opcWindowOpen : Nat := 0x18
def opcWindowClose : Nat := 0x19
def opcCtxBind : Nat := 0x20
def opcCtxUnbind : Nat := 0x21
def opcRingDeclare : Nat := 0x22
def opcPwrArm : Nat := 0x30
def opcPwrState : Nat := 0x31
def opcPwrCap : Nat := 0x32
def opcPhaseDefine : Nat := 0x33
def opcPhaseSet : Nat := 0x34
def opcDomainLock : Nat := 0x35
def opcTestRun : Nat := 0x40
def opcCheckerMode : Nat := 0x41
def opcBankRetire : Nat := 0x42
def opcTwinBind : Nat := 0x48
def opcTwinResync : Nat := 0x49
def opcPortFence : Nat := 0x50
def opcPortUnfence : Nat := 0x51
def opcResetPartition : Nat := 0x52
def opcResetSlice : Nat := 0x53
def opcKeepRead : Nat := 0x58
def opcKeepErase : Nat := 0x59

/-- Lanes of Table 12.9. -/
inductive Lane where
  | free | cfg | pwr | int | long
  deriving DecidableEq, Repr

/-- The lane of an opcode; none where the opcode is not defined. -/
def laneOf (o : Nat) : Option Lane :=
  if o = 0x01 ∨ o = 0x02 ∨ o = 0x03 ∨ o = 0x58 then some .free
  else if o = 0x10 ∨ o = 0x11 ∨ o = 0x12 ∨ o = 0x18 ∨ o = 0x19 ∨ o = 0x20 ∨ o = 0x21 ∨ o = 0x22 ∨ o = 0x48 ∨ o = 0x50 ∨ o = 0x51
      ∨ o = 0x52 then some .cfg
  else if 0x30 ≤ o ∧ o ≤ 0x35 then some .pwr
  else if o = 0x40 ∨ o = 0x41 ∨ o = 0x42 ∨ o = 0x59 then some .int
  else if o = 0x49 ∨ o = 0x53 then some .long
  else none

/-- The core that performs an opcode (Table 12.9). -/
def coreOf (o : Nat) : Nat :=
  if 0x18 ≤ o ∧ o ≤ 0x22 then 3 else if 0x30 ≤ o ∧ o ≤ 0x35 then 1 else if o = 0x40 ∨ o = 0x41 ∨ o = 0x42 ∨ o = 0x59 then 2 else 0

/-- Bits of words 1 to 7 that Table 12.10 gives for an opcode; the masks of words not listed are 0. -/
def paramMasks (o : Nat) : List Nat :=
  let all : Nat := 2 ^ 64 - 1
  if o = 0x01 then [all, all, all, all, all, all, all]
  else if o = 0x10 then [0xFFFF, 0x7FFF00003FFF, 0x1FFF0007FFFF03FF, 0x3FFFFFFFFFFF]
  else if o = 0x11 ∨ o = 0x12 ∨ o = 0x19 then [0xFFFF]
  else if o = 0x18 then [0x3FF0000FFFF, 0x7FFF3FFF, 0x7FFF7FFF]
  else if o = 0x20 then [0xFFFFFFFF000003FF, 0x1FFF7FFF, 0x7FFF1FFF, 0xFFFFFFFF]
  else if o = 0x21 then [0x3FF]
  else if o = 0x22 then [0xFFF0FFF03FF, 0x7F000000FFFFFF00]
  else if o = 0x30 then [0xFFFFFFFFFF]
  else if o = 0x31 then [0xFF0000000F]
  else if o = 0x32 then [0x3FFFFFF]
  else if o = 0x33 then [0xFF, 0x7FFFFFFFFFFFFFFF, 0x3FFFF]
  else if o = 0x34 then [0xFF]
  else if o = 0x35 then [0x10701FF]
  else if o = 0x40 then [0x103FF]
  else if o = 0x41 then [1]
  else if o = 0x42 then [0x3FF]
  else if o = 0x48 then [0x17FFF]
  else if o = 0x50 ∨ o = 0x51 ∨ o = 0x52 then [0xF]
  else if o = 0x53 then [0x10F]
  else if o = 0x58 then [0xFFF]
  else if o = 0x59 then [7, 0xFFFFFFFF]
  else []

/-- Word `i` of command n. -/
def State.cmdW (s : State) (n i : Nat) : Nat := (s.reg (oCmdSlot (n % 64) i)).toNat

/-- A field of word `i` of command n. -/
def State.cmdF (s : State) (n i hi lo : Nat) : Nat := fld (s.cmdW n i) hi lo

/-- The posted opcode of command n. -/
def State.cmdOpc (s : State) (n : Nat) : Nat := s.cmdF n 0 7 0

def State.posted (s : State) : Nat := s.field oCmdPosted 31 0
def State.done (s : State) : Nat := s.field oCmdDone 31 0

/-- Commands posted and not done (`CMD.STAT.OUT`). -/
def State.cmdsOut (s : State) : Nat := (s.posted + 2 ^ 32 - s.done) % 2 ^ 32

/-- Command n is posted and has no reply yet. -/
def State.waitsReply (s : State) (n : Nat) : Bool :=
  decide (n < 2 ^ 32) && decide ((n + 2 ^ 32 - s.done) % 2 ^ 32 < s.cmdsOut) && !s.fw.replied.contains n

/-- An earlier command of the lane of command n has no reply yet (R278). -/
def State.laneBusy (s : State) (n : Nat) : Bool :=
  match laneOf (s.cmdOpc n) with
  | none => false
  | some .free => false
  | some l => (List.range ((n + 2 ^ 32 - s.done) % 2 ^ 32)).any fun i =>
      let m := (s.done + i) % 2 ^ 32
      laneOf (s.cmdOpc m) == some l && !s.fw.replied.contains m

/-- Firmware may accept command n as one of opcode `opc` now, on the core that performs it (R278, R280). -/
def State.cmdReady (s : State) (n opc : Nat) : Bool :=
  s.fwRuns && s.coreRuns (coreOf opc) && s.boot == bootReady && s.awake && s.waitsReply n && !(s.fw.running.any fun c => c.n == n) && s.cmdOpc n == opc && !s.laneBusy n

/-- The first row of Table 12.8 that refuses command n. -/
def State.generalCheck (s : State) (n : Nat) : Option Nat :=
  let o := s.cmdOpc n
  let ms := paramMasks o
  if s.cmdF n 0 63 32 ≠ n then some 1
  else if laneOf o = none then some 2
  else if s.cmdF n 0 31 17 ≠ 0 ∨ s.cmdF n 0 15 8 ≠ 0 ∨
      (List.range 7).any fun (i : Nat) => decide (s.cmdW n (i + 1) &&& (2 ^ 64 - 1 - ms.getD i 0) ≠ 0) then some 3
  else none

/-- `DONE` advances over replies already written (R275). `fuel` bounds them. -/
def State.advanceDone (s : State) : Nat → State
  | 0 => s
  | f + 1 =>
    let d := s.done
    if s.fw.replied.contains d then
      ({ s with fw := { s.fw with replied := s.fw.replied.filter (· != d) } }.setFld oCmdDone 31 0 ((d + 1) % 2 ^ 32)).advanceDone f
    else s

/-- Writes the reply of command n: words 1 to 7, then word 0 (R273, R275, R276). While a hang of a control core awaits its recovery,
commands stay unanswered (R24, R277). -/
def State.reply (s : State) (n code detail : Nat) (words : List Nat) : State :=
  if s.fw.hung ≠ 0 then s else
  let c := n % 64
  let opc := s.cmdOpc n
  let irq := s.cmdF n 0 16 16 == 1
  let s := foldState (fun s (i : Nat) => s.setReg (oRplSlot c (i + 1)) (BitVec.ofNat 64 (words.getD i 0))) (List.range 7) s
  let s := s.setReg (oRplSlot c 0) (BitVec.ofNat 64 (n * 2 ^ 32 + opc * 2 ^ 24 + detail * 2 ^ 16 + code))
  let s := if irq then s.setBit oCmdStat 1 else s
  let s := { s with fw := { s.fw with running := s.fw.running.filter fun x => x.n != n, replied := n :: s.fw.replied } }
  s.advanceDone 65

/-- Reply with outcome `k` of the opcode (R279). -/
def State.outcome (s : State) (n code k : Nat) : State := s.reply n code (0x10 + k) []

/-- Performs command n as an opcode: the general checks, then its body (R279). A body that does not reply leaves the command
running. -/
def State.runCmd (s : State) (opc n : Nat) (body : State → State) : State :=
  if !s.cmdReady n opc then s
  else match s.generalCheck n with
    | some k => s.reply n 6 k []
    | none => body { s with fw := { s.fw with running := s.fw.running ++ [{ n := n, opc := opc }] } }

end Sys2Proof.Machine
end

