-- ==== Sys2Proof/Machine/Accept.lean ====
section
/-! DEFINITION. Acceptance at a chuck (§4.4): the checks of Tables 4.5, 6.4 and 8.2 in order, the checks of load space
and checker space, and the request they produce. -/
namespace Sys2Proof.Machine

/-- What acceptance decides for a header. -/
inductive Verdict where
  | refuse (code : Nat)
  /-- Held for a context miss at step 4 (R151). -/
  | miss
  | pass
  deriving DecidableEq, Repr

/-- The committed view entry (R79). -/
def State.view (s : State) (v : Nat) : ViewSnap := snapOf (s.reg (oView v 0)) (s.reg (oView v 8)) (s.reg (oView v 16))

/-- Storage bytes of a row: inline or of the view (R72, R80). -/
def State.rowLenOf (s : State) (h : Hdr) : Nat :=
  if isViewOp (hOpc h) then (s.view (hRows h)).rowlen else hRowlen h + 1

/-- Number of rows; of one step for a stream (R73). -/
def State.rowCount (s : State) (h : Hdr) : Nat :=
  if isViewOp (hOpc h) then
    let v := s.view (hRows h)
    let c := if hOpc h = opStreamOpen then v.cnt.set (v.ndim - 2) 1 else v.cnt
    c.foldl (· * ·) 1
  else hRows h + 1

/-- Word address of row 0's start. -/
def firstWord (h : Hdr) : Nat := fld (hAddr h) 26 0

/-- Row word addresses, all steps of a stream included (R72, R80). -/
def State.rowStarts (s : State) (h : Hdr) : List Int :=
  if hOpc h = opStreamOpen then
    let v := s.view (hRows h)
    (List.range (stepCount v)).flatMap fun (i : Nat) => stepRows v (firstWord h) i
  else if isViewOp (hOpc h) then viewRows (s.view (hRows h)) (firstWord h)
  else inlineRows h

/-- Row limit of a port (Table 4.1). -/
def rowLimit (p : Nat) : Nat := if isVp p then 256 else if isCp p then 64 else 1024

/-! ## Beats of a write (R54, R349) -/

/-- Beats a row and rows, as the partner sends them. Of a tile whose first word lies in no valid region, or whose pair is not of
Table 4.8, the delivered rows cannot be derived: its stored rows count (DESIGN CHOICE, log 26). -/
def State.beatShape (s : State) (p : Nat) (h : Hdr) : Nat × Nat :=
  let o := hOpc h
  if !isWrite o then (0, 0)
  else if o == opWrv && !(s.view (hRows h)).valid then (0, 0)
  else
    let len := s.rowLenOf h
    let rows := s.rowCount h
    let per (b : Nat) := ceilDiv b (widthW p)
    if hRmt h then (per len, rows)
    else match s.regionAt (firstWord h) with
      | none => (per len, rows)
      | some n =>
        let fmt := s.rgnFmt n
        if !pairRead fmt (hDfmt h) then (per len, rows)
        else if hT h then (per (rows * (delivBits (hDfmt h) / 8)), rowElems fmt len)
        else (per (delivRow fmt (hDfmt h) len), rows)

/-! ## The checks -/

/-- Step 3 of Table 4.5: address form. -/
def State.addrForm (s : State) (h : Hdr) : Bool :=
  if hRmt h then (hOpc h == opWr || hOpc h == opWrv) && s.hasPort 10 && rIid (hAddr h) != s.iid
  else !usesAddr (hOpc h) || hAddr h / 2 ^ 27 == 0

/-- Step 4: a `SID` that the opcode translates is in the context's limits (R143). -/
def State.sidOk (s : State) (slot : Nat) (h : Hdr) : Bool :=
  let o := hOpc h
  let routable := o == opCntAdd || o == opFlgSet || o == opFlgClr
  let isL (r : SyncRef) : Bool := match r with
    | .local _ => true
    | _ => false
  if o == opCntAdd || o == opCntWait || o == opCntRd then s.translate slot false routable (hSid h) != .bad
  else if o == opFlgSet || o == opFlgClr || o == opFlgWait || o == opFlgTest then
    s.translate slot true routable (hSid h) != .bad
  else if (isWrite o && hFinal h && !hRmt h) || o == opStreamOpen then isL (s.translate slot false false (hSid h))
  else true

/-- Step 6: row count (R73), and at least two dimensions for a stream (R80). -/
def State.shapeOk (s : State) (p : Nat) (h : Hdr) : Bool :=
  let o := hOpc h
  if isInline o || isViewOp o then
    decide (s.rowCount h ≤ rowLimit p) && (o != opStreamOpen || decide (2 ≤ (s.view (hRows h)).ndim))
  else true

/-- Permission bit of `RGN[n].ATTR` an opcode needs (Table 2.4). -/
def permOf (o : Nat) : Nat := if isAcc o then 34 else if isWrite o ∨ o = opRangeOpen then 33 else 32

/-- Step 10: storage and delivery pair for the opcode (R85, R86), transpose delivery format (R75). -/
def pairOk (o fmt dfmt : Nat) (t : Bool) : Bool :=
  if o = opAcc then decide (fmt = 0 ∧ dfmt ≤ 2)
  else if o = opAccx then decide (fmt = fmtFx64 ∧ dfmt ≤ 2)
  else
    (if isWrite o then pairWrite fmt dfmt else pairRead fmt dfmt)
    && (o != opWrp || (!isMx fmt && fmt != 11 && (dfmt == dRaw || delivBits dfmt == storeBits fmt)))
    && (!t || transposable dfmt)

/-- Step 11: granule, whole words, block alignment, transpose size, delivered bytes (R74, R75, R92, Table 4.1). -/
def State.granuleOk (s : State) (n : Nat) (h : Hdr) (starts : List Int) : Bool :=
  let o := hOpc h
  let fmt := s.rgnFmt n
  let len := s.rowLenOf h
  let rows := s.rowCount h
  let c := rowElems fmt len
  len % granule fmt == 0
  && (!isWrite o || len % 8 == 0)
  && (!isMx fmt || starts.all fun a => (8 * a - s.rgnBase n * 65536) % (mxBlockBytes fmt : Int) == 0)
  && (if hT h then decide (1 ≤ rows ∧ rows ≤ 128 ∧ 1 ≤ c ∧ c ≤ 128)
      else decide (delivRow fmt (hDfmt h) len ≤ 262144))

/-- Step 12: every row inside the region, and inside the element area in an MX region (R34). -/
def State.rowsInside (s : State) (n len : Nat) (starts : List Int) : Bool :=
  starts.all fun a => decide ((s.rgnBase n * 65536 : Nat) ≤ 8 * a ∧ 8 * a + len ≤ (s.rgnEnd n : Nat))

/-- Step 13: no line of the rows in a held slice. -/
def State.slicesFree (s : State) (n len : Nat) (starts : List Int) : Bool :=
  starts.all fun a => (s.rowLines n (8 * a).toNat len).all fun l => !s.held (sliceOf l.lb)

/-- The filter entry of a context's slot for a tile: the one held, else the lowest free (R178). -/
def State.filterEntry (s : State) (slot tile : Nat) : Option Nat :=
  let ks := (List.range 4).map fun (e : Nat) => 4 * slot + e
  match ks.find? fun k => match tfind s.filters k with | some f => f.tile == tile | none => false with
  | some k => some k
  | none => ks.find? fun k => (tfind s.filters k).isNone

/-- Steps of a stream whose data has been asked for and not yet delivered. -/
def Port.stepsAsked (q : Port) (k : Nat) : Nat :=
  (q.reqs.filter fun r => hOpc r.h == opStreamStep && hStrm r.h == k && r.ans.isNone && r.cut.isNone && r.phase != .refused
    && r.driven == 0 && r.rows.isEmpty).length

/-- Steps 7 to 13 for an opcode whose rows lie in a region, then the opcode's own checks. -/
def State.dataVerdict (s : State) (p slot : Nat) (h : Hdr) : Verdict :=
  let o := hOpc h
  match s.regionAt (firstWord h) with
  | none => .refuse 5
  | some n =>
    let starts := s.rowStarts h
    let len := s.rowLenOf h
    if o = opInval then (if s.rowsInside n len starts then .pass else .refuse 5)
    else if s.rgnLock n then .refuse 1
    else if !s.permitted n slot p (permOf o) then .refuse 7
    else if !pairOk o (s.rgnFmt n) (hDfmt h) (hT h) then .refuse 6
    else if !s.granuleOk n h starts then .refuse 4
    else if !s.rowsInside n len starts then .refuse 5
    else if !s.slicesFree n len starts then .refuse 1
    else if isAcc o then
      if delivRow (s.rgnFmt n) (hDfmt h) len > wdBuffer p ∨ hTrow h + hRows h > 1023 then .refuse 4
      else if (s.filterEntry slot (hTile h)).isNone then .refuse 1
      else .pass
    else if o = opStreamOpen then
      let v := s.view (hRows h)
      let lines (i : Nat) : Nat :=
        ((stepRows v (firstWord h) i).map fun a => (s.rowLines n (8 * a).toNat len).length).foldl (· + ·) 0
      if ((s.port p).stream (hStrm h)).isOpen then .refuse 11
      else if (List.range (stepCount v)).any fun (i : Nat) => decide (lines i > 8 * (hDepth h + 1)) then .refuse 4
      else .pass
    else .pass

/-- Checks 1 to 4 of `RANGE_OPEN` (Table 6.4). -/
def State.rangeVerdict (s : State) (p slot : Nat) (h : Hdr) : Verdict :=
  let a := firstWord h
  match s.regionAt a with
  | none => .refuse 5
  | some n =>
    if s.rgnLock n then .refuse 1
    else if !s.permitted n slot p 33 then .refuse 7
    else if 8 * (a + hExt h + 1) > s.rgnEnd n then .refuse 5
    else .pass

/-- A CP bulk request to load space (R269). -/
def State.isLoad (s : State) (p : Nat) (h : Hdr) : Bool :=
  isCp p && (s.boot == bootLoad || s.boot == bootFail)
  && (hOpc h == opRd || hOpc h == opWr || hOpc h == opRdv || hOpc h == opWrv)

/-- The checks of load space after step 3. -/
def State.loadVerdict (s : State) (p : Nat) (h : Hdr) : Verdict :=
  let len := s.rowLenOf h
  if hOpc h = opRdv ∨ hOpc h = opWrv then .refuse 6
  else if !s.shapeOk p h then .refuse 4
  else if hDfmt h ≠ dRaw then .refuse 6
  else if (s.rowStarts h).all fun a => decide (0 ≤ a ∧ 8 * a + len ≤ 131136 * 8) then .pass
  else .refuse 5

/-- A CP bulk request to checker space (R231). -/
def State.isChecker (s : State) (p : Nat) (h : Hdr) : Bool :=
  isCp p && s.bit oChk 0 && (hOpc h == opRd || hOpc h == opWr) && hDfmt h == dRaw

/-- The checks of checker space in place of steps 7 to 12, and step 13. -/
def State.checkerVerdict (s : State) (h : Hdr) : Verdict :=
  let pb := fld (hAddr h) 26 14
  if pb ≥ s.nPhys then .refuse 5
  else if hRows h ≠ 0 ∨ hRowlen h ≠ 255 ∨ hStride h ≠ 0 ∨ hT h ∨ hRmt h then .refuse 4
  else if s.held (pb / 66) then .refuse 1
  else .pass

/-- Every acceptance check in its order (Table 4.5, R122, R178, R231, R268, R269, R292). -/
def State.verdict (s : State) (p : Nat) (h : Hdr) : Verdict :=
  let o := hOpc h
  if isCp p ∧ (s.boot = bootCheck ∨ s.boot = bootInit) then .refuse 1
  else if (s.port p).fence ≠ .free ∨ (hRmt h ∧ (s.port 10).fence ≠ .free) then .refuse 8
  else if !formOk p h then .refuse 6
  else if !s.addrForm h then .refuse 5
  else if s.isLoad p h then s.loadVerdict p h
  else if s.boot ≠ bootReady then .refuse 10
  else if !s.isBound (hCtx h) then .refuse 10
  else match s.slotOf (hCtx h) with
    | none => .miss
    | some slot =>
      if !s.sidOk slot h then .refuse 10
      else if isViewOp o && !(s.view (hRows h)).valid then .refuse 4
      else if !s.shapeOk p h then .refuse 4
      else if s.isChecker p h then s.checkerVerdict h
      else if hRmt h then .pass
      else if isInline o || isViewOp o then s.dataVerdict p slot h
      else if o = opRangeOpen then s.rangeVerdict p slot h
      else if o = opStreamStep then
        let q := s.port p
        let t := q.stream (hStrm h)
        if !t.isOpen then .refuse 11
        else if t.steps.length ≤ t.next + q.stepsAsked (hStrm h) then .refuse 4
        else .pass
      else if o = opStreamClose then (if ((s.port p).stream (hStrm h)).isOpen then .pass else .refuse 11)
      else .pass

/-! ## The accepted request -/

/-- A request without rows, from its header. -/
def Req.blank (uid : Nat) (h : Hdr) (beats : List (List Byte × Nat)) : Req :=
  { uid := uid, h := h, phase := .waiting, rgn := 0, holds := false, ep := none, rowLen := 0, dfmt := hDfmt h, rows := [], beatsPer := 0,
    beatRows := 0, beats := beats, paid := 0, barred := [], cut := none, driven := 0, sync := 0, filt := 0, fxSeen := false, advanced := false,
    space := 0, segs := 0, closed := false, codes := [], outPk := 0, ans := none }

/-- A row none of whose lines is issued. -/
def Row.todo (byte : Nat) (lines : List RowLine) : Row :=
  { byte := byte, lines := lines, held := false, wasHeld := false, filtered := none, repaired := false }

/-- The logical bank through whose group switch and bank a physical bank is reached (R233). -/
def State.routeOf (s : State) (pb : Nat) : Nat :=
  let sl := pb / 66
  let pos := pb % 66
  if pos < 64 then 64 * sl + pos
  else
    let st := if pos = 64 then s.field (oSpare sl) 63 62 else s.field (oSpare sl) 61 60
    if st = 1 ∨ st = 2 then (if pos = 64 then s.field (oSpare sl) 8 0 else s.field (oSpare sl) 24 16) else 64 * sl

/-- Sync fields fixed at acceptance: the physical counter or flag, or 65,536 + the route's word (R143, R160). -/
def State.syncOf (s : State) (slot : Nat) (h : Hdr) : Nat :=
  let o := hOpc h
  let flag := o == opFlgSet || o == opFlgClr || o == opFlgWait || o == opFlgTest
  match s.translate slot flag (o == opCntAdd || o == opFlgSet || o == opFlgClr) (hSid h) with
  | .local n => n
  | .routed r => 65536 + s.tab (oRoute r) 63 0
  | .bad => 0

/-- Removes cached lines, by line address, from a VP line cache (R133). -/
def State.vpcDrop (s : State) (p : Nat) (las : List Nat) : State :=
  if isVp p then s.modPort p fun q => { q with vpc := q.vpc.filter fun e => !las.contains e.1 } else s

/-- An `INVAL` or a read with `NOALLOC` removes lines in header order: from the cache, and from what earlier reads still on
their way may allocate (R133). -/
def State.vpcInval (s : State) (p : Nat) (las : List Nat) : State :=
  let s := s.vpcDrop p las
  if isVp p then s.modPort p fun q => { q with reqs := q.reqs.map fun r => { r with barred := las ++ r.barred } } else s

/-- Puts a request at the end of its port's order and of its lane. -/
def State.enqueue (s : State) (p : Nat) (r : Req) : State :=
  s.modPort p fun q =>
    if onReadLane (hOpc r.h) then { q with reqs := q.reqs ++ [r], laneR := q.laneR ++ [r.uid] }
    else { q with reqs := q.reqs ++ [r], laneA := q.laneA ++ [r.uid] }

/-- A refusal takes its place on its lane; nothing is performed (R19, R56). -/
def State.refuseReq (s : State) (p uid : Nat) (h : Hdr) (code : Nat) : State :=
  (s.modPort p fun q => { q with due := q.due.map fun d => if d.uid == uid then { d with refused := true } else d }).enqueue p
    { Req.blank uid h [] with phase := .refused, ans := some (code, 0) }

/-- Rows of a request in its region. -/
def State.mkRows (s : State) (n : Nat) (h : Hdr) : List Row :=
  let len := s.rowLenOf h
  (s.rowStarts h).map fun a => Row.todo (8 * a).toNat (s.rowLines n (8 * a).toNat len)

/-- A request through a region: rows, hold on the region, epoch, filter entry, invalidation in header order. -/
def State.acceptData (s : State) (p slot n : Nat) (r : Req) : State :=
  let h := r.h
  let o := hOpc h
  let r := { r with rgn := n, rowLen := s.rowLenOf h }
  if o = opInval then
    let las := (s.rowStarts h).flatMap fun a => (s.rowLines n (8 * a).toNat (s.rowLenOf h)).map fun l => l.la
    (s.vpcInval p las).enqueue p { r with phase := .applied, ans := some (0, 0) }
  else if o = opStreamOpen then
    let v := s.view (hRows h)
    let t : Stream :=
      { isOpen := true, gen := r.uid, ctx := hCtx h, gate := hSid h, rgn := n, dfmt := hDfmt h, depth := hDepth h, rowLen := s.rowLenOf h,
        steps := (List.range (stepCount v)).map fun (i : Nat) => (stepRows v (firstWord h) i).map fun a => (8 * a).toNat,
        next := 0, fetched := [] }
    ((s.holdRgn n).modPort p fun q => q.setStream (hStrm h) t).enqueue p { r with rowLen := 0 }
  else
    let rows := s.mkRows n h
    let r := { r with rows := rows, holds := true, sync := if hFinal h then s.syncOf slot h else 0 }
    let s1 := s.holdRgn n
    let s2 := if isRead o && hNoalloc h then s1.vpcInval p (rows.flatMap fun w => w.lines.map fun l => l.la) else s1
    if isAcc o then
      let k := (s.filterEntry slot (hTile h)).getD 0
      let f := (tfind s.filters k).getD { Filter.empty with tile := hTile h }
      { s2 with filters := tset s2.filters k f }.enqueue p { r with filt := k }
    else s2.enqueue p r

/-- A request accepted: what R38, R54, R72 to R80, R122, R128, R185, R231 and R269 fix at acceptance. Its beats are those counted
at its header (R349). A remote row's offset is taken modulo 2^27 into `OFS`
(DESIGN CHOICE, log 64). -/
def State.acceptReq (s : State) (p : Nat) (w : Held) : State :=
  let h := w.h
  let o := hOpc h
  let r := { Req.blank w.uid h w.beats with beatsPer := w.shape.1, beatRows := w.shape.2 }
  if s.isLoad p h then
    s.enqueue p { r with space := 2, rowLen := s.rowLenOf h,
                         rows := (s.rowStarts h).map fun a => Row.todo (8 * a).toNat [] }
  else
    let s := { s with lastUse := tset s.lastUse (hCtx h) s.useClock, useClock := s.useClock + 1 }
    let slot := (s.slotOf (hCtx h)).getD 0
    if s.isChecker p h then
      let pb := fld (hAddr h) 26 14
      s.enqueue p { r with space := 1, rowLen := 256,
                           rows := [Row.todo pb [{ la := 0, lb := s.routeOf pb, ix := fld (hAddr h) 13 0, scale := false,
                                                   st := .todo }]] }
    else if hRmt h then
      let base : Int := rOfs (hAddr h)
      let starts := if o = opWrv then viewRows (s.view (hRows h)) base
        else (List.range (hRows h + 1)).map fun (i : Nat) => base + i * signedOf 28 (hStride h)
      s.enqueue p { r with space := 3, rowLen := s.rowLenOf h,
                           rows := starts.map fun a => Row.todo (unsignedOf 27 a) [] }
    else if isInline o || isViewOp o then s.acceptData p slot ((s.regionAt (firstWord h)).getD 0) r
    else if o = opRangeOpen then
      let n := (s.regionAt (firstWord h)).getD 0
      (s.holdRgn n).enqueue p { r with rgn := n, holds := true }
    else if o = opStreamClose then
      let t := (s.port p).stream (hStrm h)
      let abort (w : Req) : Req :=
        if hOpc w.h == opStreamStep && hStrm w.h == hStrm h && w.ans.isNone && w.rows.isEmpty && w.phase != .refused then
          { w with ans := some (13, 0), phase := .applied } else w
      (s.modPort p fun q => { q with reqs := q.reqs.map abort }.setStream (hStrm h) Stream.closed).enqueue p
        { r with rgn := t.rgn, holds := true }
    else if o = opNop then s.enqueue p { r with phase := .applied, ans := some (0, 0) }
    else s.enqueue p { r with sync := if isSync o then s.syncOf slot h else 0 }

/-- A refusal `RETRY` of an accumulate is that of check 3 of Table 8.2: neither lock nor hold refused it. -/
def State.filterFull (s : State) (p : Nat) (h : Hdr) : Bool :=
  match s.slotOf (hCtx h), s.regionAt (firstWord h) with
  | some slot, some n =>
    !s.rgnLock n && s.slicesFree n (s.rowLenOf h) (s.rowStarts h) && (s.filterEntry slot (hTile h)).isNone && p != 12
  | _, _ => false

/-- Beats of a refused write are discarded, with their credits (R54, R59). -/
def State.discardBeats (s : State) (p n : Nat) : State := foldState (fun s _ => s.retWd p) (List.range n) s

/-- A header leaves acceptance, refused or accepted, and returns its credit (R59); or it is held there (R151). -/
def State.takeIn (s : State) (p : Nat) (w : Held) : State :=
  if w.ended then s.refuseReq p w.uid w.h 13
  else match s.verdict p w.h with
  | .refuse c =>
    let s := if isAcc (hOpc w.h) && c == 1 && s.filterFull p w.h then s.bump oAccFull 31 0 1 else s
    ((s.refuseReq p w.uid w.h c).retReq p).discardBeats p w.beats.length
  | .pass => (s.acceptReq p w).retReq p
  | .miss => s.modPort p fun q => { q with inq := q.inq ++ [w] }

/-- Headers held at acceptance enter it again in header order, until one is held for a context miss. `n` bounds them. -/
def State.admitHeld (s : State) (p : Nat) : Nat → State
  | 0 => s
  | n + 1 =>
    match (s.port p).inq with
    | [] => s
    | w :: ws =>
      if !w.ended ∧ s.verdict p w.h = .miss then s
      else ((s.modPort p fun q => { q with inq := ws }).takeIn p w).admitHeld p n

end Sys2Proof.Machine
end

