-- ==== Sys2Proof/Machine/SyncOps.lean ====
section
/-! DEFINITION. The sync engine's operations: counters, flags, rings, waits, scope mismatches, residency of contexts
(chapter 7), the range scoreboard (§6.5). -/
namespace Sys2Proof.Machine

/-- The FCLK cycle since power-up: turn and cycle. -/
def State.now (s : State) : Nat := s.turn * 4096 + s.cyc

/-! ## Scopes (R153) -/

/-- Whether a release at `rs` by `rport` (of instance `iid` when routed) synchronises with an acquire at `as` by `aport`
(Table 7.7). -/
def State.synchronise (s : State) (rport rs : Nat) (iid : Option Nat) (aport as : Nat) : Bool :=
  let bound := s.field oTwinStat 63 62 != 0
  match iid with
  | none => rport == aport || (decide (1 ≤ rs) && decide (1 ≤ as))
  | some i =>
    if i = s.iid then rport == aport || (decide (1 ≤ rs) && decide (1 ≤ as))
    else if bound && i == s.field oTwinStat 14 0 then decide (2 ≤ rs) && decide (2 ≤ as)
    else rs == 3 && as == 3

/-- An acquire at a counter or flag observes its last modification (R155). -/
def State.observe (s : State) (flag : Bool) (phys : Nat) (m : Option Modif) (aport as : Nat) : State :=
  match m with
  | some ⟨rport, some rs, iid⟩ =>
    if s.synchronise rport rs iid aport as then s
    else
      (s.bump oMis 31 0 1).setReg oMisLast (BitVec.ofNat 64 (iid.getD s.iid * 2 ^ 29 + b2n iid.isSome * 2 ^ 28
        + rs * 2 ^ 26 + rport * 2 ^ 22 + as * 2 ^ 20 + aport * 2 ^ 16 + b2n flag * 2 ^ 14 + phys % 2 ^ 14))
  | _ => s

/-! ## Rings (R156, R157) -/

/-- The ring entry that holds a physical counter. -/
def State.ringOf (s : State) (n : Nat) : Option Nat :=
  (List.range 64).find? fun k => s.tab (oRing k) 63 63 == 1 && (s.tab (oRing k) 55 44 == n || s.tab (oRing k) 43 32 == n)

/-- Producer and consumer values of a ring entry. -/
def State.ringP (s : State) (k : Nat) : Nat := (s.ctr (s.tab (oRing k) 55 44)).val.toNat
def State.ringC (s : State) (k : Nat) : Nat := (s.ctr (s.tab (oRing k) 43 32)).val.toNat

/-- Adding `v` to counter n keeps its ring's bound `C ≤ P ≤ C + CAP`; a counter of no ring always fits. -/
def State.fits (s : State) (n v : Nat) : Bool :=
  match s.ringOf n with
  | none => true
  | some k =>
    let cap := s.tab (oRing k) 31 16
    let add (c : Nat) : Nat := min (c + v) (2 ^ 64 - 1)
    let p := if s.tab (oRing k) 55 44 = n then add (s.ringP k) else s.ringP k
    let c := if s.tab (oRing k) 43 32 = n then add (s.ringC k) else s.ringC k
    decide (c ≤ p ∧ p ≤ c + cap)

/-! ## Modifications (R146, R148, R155) -/

/-- The resident slot whose run holds a physical counter or flag. -/
def State.slotOfPhys (s : State) (flag : Bool) (n : Nat) : Option Nat :=
  (List.range 64).find? fun i => s.tab (oCtxt i 0) 63 63 == 1 &&
    (if flag then decide (s.fbase i ≤ n ∧ n < s.fbase i + s.fcnt i) else decide (s.cbase i ≤ n ∧ n < s.cbase i + s.ccnt i))

/-- The context of a counter or flag has moved in this turn (R289). -/
def State.moved (s : State) (flag : Bool) (n : Nat) : State :=
  match s.slotOfPhys flag n with
  | some i => { s with ctxMoved := tset s.ctxMoved i true }
  | none => s

/-- The condition of a registered wait. -/
def State.waitHolds (s : State) (w : Waiter) : Bool :=
  if w.isFlag then (s.flg w.phys).val != w.cond else decide (w.thr.toNat ≤ (s.ctr w.phys).val.toNat)

/-- Waits on a counter or flag whose condition has come to hold are due (R62). -/
def State.markWaits (s : State) (flag : Bool) (n : Nat) : State :=
  { s with waiters := s.waiters.map fun w =>
      if w.isFlag == flag && w.phys == n && w.met.isNone && s.waitHolds w then { w with met := some s.now } else w }

/-- Counter n advanced by `v`, saturating, with the modification recorded. -/
def State.addCtr (s : State) (n v : Nat) (m : Modif) : State :=
  let c := (s.ctr n).val.toNat + v
  let s := if c > 2 ^ 64 - 1 then s.setBit oSyncErr 0 else s
  let s := { s with counters := tset s.counters n { val := BitVec.ofNat 64 (min c (2 ^ 64 - 1)), mod := some m } }
  (s.moved false n).markWaits false n

/-- Flag n set to `v`, with the modification recorded. -/
def State.putFlg (s : State) (n : Nat) (v : Bool) (m : Modif) : State :=
  let s := { s with flags := tset s.flags n { val := v, mod := some m } }
  (s.moved true n).markWaits true n

/-! ## Completion of rows -/

/-- A line that has committed here, or been read, or failed. -/
def LineSt.settled : LineSt → Bool
  | .done _ _ => true
  | .mirror => true
  | _ => false

/-- A line that has reached its end, its mirror included. -/
def LineSt.over : LineSt → Bool
  | .done _ _ => true
  | _ => false

/-- A row whose lines all satisfy `f`, or that the replay filter answered. -/
def Row.every (f : LineSt → Bool) (w : Row) : Bool := w.filtered.isSome || w.lines.all fun l => f l.st

/-- Codes of a write, worst first (R58, R197); an owner's `FENCED` (R292) stands after the first (log 53). -/
def worst (a b : Nat) : Nat :=
  let rk (c : Nat) : Nat := match c with
    | 13 => 10 | 8 => 9 | 9 => 8 | 7 => 7 | 10 => 6 | 5 => 5 | 6 => 4 | 4 => 3 | 3 => 2 | 12 => 1 | _ => 0
  if rk a < rk b then b else a

/-- The code of a finished row. -/
def Row.code (w : Row) : Nat :=
  match w.filtered with
  | some c => c
  | none => w.lines.foldl (fun c l => match l.st with | .done d _ => worst c d | _ => c) 0

/-- The code of the lines of a write. -/
def Req.linesCode (r : Req) : Nat := r.rows.foldl (fun c w => worst c w.code) 0

/-- Every line was stored (R53): committed here, mirrored or not. -/
def Req.allStored (r : Req) : Bool := r.linesCode == 0 || r.linesCode == 12

/-! ## Waiters of a context (R150) -/

/-- The counter advance of a `FINAL` write has been given up: a line of it could not be stored (R53). -/
def Req.givenUp (r : Req) : Bool := r.rows.all (Row.every LineSt.settled) && !r.allStored

/-- A sync operation of context c that is pending at a port: accepted and neither applied nor answered. -/
def Req.pendsSync (r : Req) (c : Nat) : Bool :=
  hCtx r.h == c && r.ans.isNone && r.cut.isNone && r.phase != .applied && r.phase != .refused
  && (isSync (hOpc r.h) || (isWrite (hOpc r.h) && hFinal r.h && !hRmt r.h && !r.advanced && !r.givenUp))

/-- Waiters of the context in slot `i`. -/
def State.waiterCount (s : State) (i : Nat) : Nat :=
  let c := s.tab (oCtxt i 0) 57 48
  let waits := (s.waiters.filter fun w => w.ctx == c).length
  let rings := ((List.range 64).filter fun k => s.tab (oRing k) 63 63 == 1 &&
    decide (s.cbase i ≤ s.tab (oRing k) 55 44 ∧ s.tab (oRing k) 55 44 < s.cbase i + s.ccnt i)).length
  let streams := ((List.range 4).map fun p => ((s.port p).streams.filter fun e => e.2.isOpen && e.2.ctx == c).length).foldl (· + ·) 0
  let filts := ((List.range 4).filter fun e => (tfind s.filters (4 * i + e)).isSome).length
  let sigs := (s.timedQ.filter fun t => t.ctx == c).length
  let held := (s.rp.batches.filter fun e => e.2.ringHeld && s.winCtx e.2.win == c).length
  let pend := (([0, 1, 2, 3, 4, 5, 6, 7, 8, 9, 12] : List Nat).map fun p =>
    ((s.port p).reqs.filter fun r => r.pendsSync c).length).foldl (· + ·) 0
  waits + rings + streams + filts + sigs + held + pend

/-- A resident context is pinned (R150). -/
def State.pinned (s : State) (i : Nat) : Bool := s.waiterCount i != 0

/-! ## Residency (R151, R152) -/

/-- Slots that hold a context. -/
def State.residents (s : State) : List Nat := (List.range 64).filter fun i => s.tab (oCtxt i 0) 63 63 == 1

/-- Lowest start of a free run of `len` among `total`, given the used runs `(base, length)`; `fuel` bounds the search. -/
def freeRun (used : List (Nat × Nat)) (total len : Nat) : Nat → Nat → Option Nat
  | 0, _ => none
  | f + 1, a =>
    if a + len > total then none
    else match used.find? fun u => decide (u.1 < a + len ∧ a < u.1 + u.2 ∧ 0 < u.2 ∧ 0 < len) with
      | some u => freeRun used total len f (u.1 + u.2)
      | none => some a

/-- The free runs a context needs, lowest first fit (log 12). -/
def State.runsFor (s : State) (b : Bound) : Option (Nat × Nat) :=
  let cu := s.residents.map fun i => (s.cbase i, s.ccnt i)
  let fu := s.residents.map fun i => (s.fbase i, s.fcnt i)
  match freeRun cu 4096 b.ccnt 66 0, freeRun fu 16384 b.fcnt 66 0 with
  | some c, some f => some (c, f)
  | _, _ => none

/-- Entries of a table from key `a`, `n` of them, moved to start at key `b`. -/
def tmove {α : Type} (t : Table α) (a n b : Nat) : Table α :=
  (t.filter fun e => a ≤ e.1 && e.1 < a + n).map fun e => (e.1 - a + b, e.2)

/-- Entries of `t` put into `u`. -/
def tputAll {α : Type} (u t : Table α) : Table α := t.foldl (fun m e => tset m e.1 e.2) u

/-- Loads a bound context into slot `i` with runs at `cb` and `fb` (R144, R151). DESIGN CHOICE (log 12): its counters and flags come
back with their records of the last modification (R155); a context loaded for the first time has none. -/
def State.loadCtx (s : State) (c i cb fb : Nat) : State :=
  let b := s.boundOf c
  let s := { s with counters := tputAll (tclear s.counters cb (cb + b.ccnt)) (tmove b.ctrs 0 b.ccnt cb),
                    flags := tputAll (tclear s.flags fb (fb + b.fcnt)) (tmove b.flgs 0 b.fcnt fb) }
  let s := s.setReg (oCtxt i 0) (BitVec.ofNat 64 (2 ^ 63 + c * 2 ^ 48 + b.epoch % 2 ^ 32))
  let s := s.setReg (oCtxt i 8) (BitVec.ofNat 64 (cb * 2 ^ 32 + b.ccnt * 2 ^ 16 + b.rbase * 2 ^ 8 + b.rcnt))
  let s := s.setReg (oCtxt i 16) (BitVec.ofNat 64 (fb * 2 ^ 32 + b.fcnt * 2 ^ 16 + b2n b.ecen * 2 ^ 12 + b.ectr))
  s.setReg (oCtxt i 24) (BitVec.ofNat 64 b.keys)

/-- Clears a slot. -/
def State.freeSlot (s : State) (i : Nat) : State :=
  { foldState (fun s o => s.setReg (oCtxt i o) 0) [0, 8, 16, 24] s with
    filters := tclear s.filters (4 * i) (4 * i + 4), ctxStall := tdel s.ctxStall i, ctxMoved := tdel s.ctxMoved i }

/-- Evicts the context of slot `i`: its counters and flags go to CC3 memory (R151), with their modification records (log 12). -/
def State.evict (s : State) (i : Nat) : State :=
  let c := s.tab (oCtxt i 0) 57 48
  let b := s.boundOf c
  let b := { b with ctrs := tmove s.counters (s.cbase i) (s.ccnt i) 0, flgs := tmove s.flags (s.fbase i) (s.fcnt i) 0 }
  (({ s with bound := tset s.bound c b }).freeSlot i).bump oEvict 31 0 1

/-- The unpinned slot whose context was used least recently, the lower slot first (R151). DESIGN CHOICE (log 12): a request of a partner
is a use, a remote packet is none; a context not used yet counts as used at 0. -/
def State.victim (s : State) : Option Nat :=
  let use (i : Nat) : Nat := tget 0 s.lastUse (s.tab (oCtxt i 0) 57 48)
  (s.residents.filter fun i => !s.pinned i).foldl (fun b i => match b with
    | none => some i
    | some j => if use i < use j then some i else some j) none

/-- Makes a bound context resident, evicting while it must; false, what was evicted staying so, when every resident context is
pinned. -/
def State.makeResident (s : State) (c : Nat) : Nat → State × Bool
  | 0 => (s, false)
  | n + 1 =>
    match (List.range 64).find? fun i => s.tab (oCtxt i 0) 63 63 == 0, s.runsFor (s.boundOf c) with
    | some i, some (cb, fb) => (s.loadCtx c i cb fb, true)
    | _, _ => match s.victim with
      | some v => (s.evict v).makeResident c n
      | none => (s, false)

/-- A context made resident where it is not yet: the miss is counted (R151; by log 12 also that of `RING_DECLARE`). -/
def State.ensureResident (s : State) (c : Nat) : State × Bool :=
  if (s.slotOf c).isSome then (s, true)
  else (s.bump oSyncMiss 31 0 1).makeResident c 66

/-! ## Range scoreboard (§6.5) -/

/-- Entry i is a range in force. -/
def State.sbValid (s : State) (i : Nat) : Bool := s.tab (oSbEnt i) 63 63 == 1

/-- Ranges in force. -/
def State.sbOpen (s : State) : Nat := ((List.range 256).filter s.sbValid).length

/-- A line address lies in a range in force. -/
def State.sbHits (s : State) (la : Nat) : Bool :=
  (List.range 256).any fun i => s.sbValid i && decide (s.tab (oSbEnt i) 22 0 ≤ la ∧ la ≤ s.tab (oSbEnt i) 45 23)

/-- A row overlaps a range in force: its element lines only (R123). -/
def State.rowHeld (s : State) (w : Row) : Bool := w.lines.any fun l => !l.scale && s.sbHits l.la

/-- The region of an entry's span. -/
def State.sbRegion (s : State) (i : Nat) : Option Nat := s.regionAt (s.tab (oSbEnt i) 22 0 * 16)

/-- Closes entry i: it becomes invalid and its hold on the region ends; an aborted close is counted and recorded (R126). -/
def State.sbClose (s : State) (i : Nat) (aborted : Bool) (port : Nat) : State :=
  let e := (tfind s.regs (oSbEnt i)).getD 0
  let s1 := match s.sbRegion i with
    | some n => s.dropRgn n
    | none => s
  let s2 := s1.setReg (oSbEnt i) 0
  if aborted then
    (s2.bump oSbAborts 31 0 1).setReg oSbAlast
      (BitVec.ofNat 64 (i * 2 ^ 56 + port * 2 ^ 52 + wfld e 58 49 * 2 ^ 40 + wfld e 22 0))
  else s2

/-- A close of entry i has been evaluated and is not yet in force (R125). -/
def State.sbClosing (s : State) (i : Nat) : Bool :=
  ([0, 1, 2, 3, 4, 5, 6, 7, 8, 9] : List Nat).any fun p => (s.port p).reqs.any fun r =>
    r.phase == .closing && hOpc r.h == opRangeClose && fld (hSid r.h) 7 0 == i

end Sys2Proof.Machine
end

