-- ==== Sys2Proof/Machine/Issue.lean ====
section
/-! DEFINITION. Accepted requests on their way: the order in which they issue (§6.1), the rows of reads and writes (§4.5 to
§4.9, §6.5, §6.7, §8.5), the evaluation of sync operations (§7.2, §7.3), responses on the two lanes (§3.5, §3.7). -/
namespace Sys2Proof.Machine

/-! ## Completion and visibility -/

/-- Line `l` of row `w` of a request is still to be issued: of a cut request, only in an accumulate row issued in part
(R108, R180). -/
def Req.owes (r : Req) (w : Row) (l : RowLine) : Bool :=
  l.st == .todo && w.filtered.isNone && (r.cut.isNone || (isAcc (hOpc r.h) && w.lines.any fun x => x.st != .todo))

/-- Lines of a request still at the banks or at the twin, or of an accumulate row that must be completed. -/
def Req.inFlight (r : Req) : Bool :=
  r.rows.any fun w => w.lines.any fun l => match l.st with
    | .sent => true
    | .repair => true
    | .mirror => true
    | .todo => r.cut.isSome && r.owes w l
    | .done _ _ => false

/-- Every line has committed, been read, or failed; `f` says how far (R115, R118). A remote write is complete when it has
been answered (R136). -/
def Req.linesDone (f : LineSt → Bool) (r : Req) : Bool :=
  if r.ans.isSome then true
  else if r.cut.isSome then !r.inFlight
  else if r.space == 3 then false
  else if isRead (hOpc r.h) || isWrite (hOpc r.h) then r.rows.all (Row.every f)
  else true

/-- A request that has completed at the banks or the sync engine (R115). -/
def Req.complete (r : Req) : Bool :=
  if isRead (hOpc r.h) || isWrite (hOpc r.h) then
    r.linesDone LineSt.settled && (!(hFinal r.h && !hRmt r.h) || r.advanced || !r.allStored || r.ans.isSome || r.cut.isSome)
  else if hOpc r.h = opStreamStep then r.ans.isSome || !r.rows.isEmpty
  else r.ans.isSome || r.phase == .yielded || r.phase == .applied

/-- The visibility point of a write at a scope (Table 6.1): its mirrors count at PAIR and FABRIC. -/
def Req.visible (scope : Nat) (r : Req) : Bool :=
  !isWrite (hOpc r.h) || r.linesDone (if scope ≤ 1 then LineSt.settled else LineSt.over)

/-- The acquire of an earlier request is still open (R116). -/
def Req.acquiring (r : Req) : Bool :=
  hAcq r.h && r.phase != .refused && r.phase != .yielded
  && (hOpc r.h != opStreamStep || (r.ans.isNone && r.rows.isEmpty))

/-- Requests of a port older than one. -/
def Port.before (q : Port) (uid : Nat) : List Req := q.reqs.takeWhile fun r => r.uid != uid

/-- A request may issue: `ORD` waits for every earlier request (R115), an open acquire holds every later one (R116). -/
def Port.mayIssue (q : Port) (r : Req) : Bool :=
  let older := q.before r.uid
  (!hOrd r.h || older.all Req.complete) && !older.any Req.acquiring

/-- The release a request carries may be applied: earlier writes of the port are visible at its scope (R118, R154). A
`RANGE_CLOSE` is evaluated before that, and comes into force after it (R125). -/
def Port.released (q : Port) (r : Req) : Bool := !hRel r.h || (q.before r.uid).all (Req.visible (hScope r.h))

/-- A line address awaits issue in an earlier request of the port (R114). -/
def Port.lineBlocked (q : Port) (uid la : Nat) : Bool :=
  (q.before uid).any fun r => r.ans.isNone && r.space == 0 && r.rows.any fun w => w.lines.any fun l => l.la == la && r.owes w l

/-- Every `ORD` of the port up to and with a request waits no longer, and no earlier acquire is open: its epoch is that of its
issue (R145). -/
def Port.orderOpen (q : Port) (r : Req) : Bool :=
  ((q.before r.uid ++ [r]).all fun x => !hOrd x.h || (q.before x.uid).all Req.complete)
    && !(q.before r.uid).any Req.acquiring

/-! ## Sending line accesses -/

/-- Queues a line access at its chuck's input for the group (R106, R107). DESIGN CHOICE (log 62): the queue has no end. -/
def State.sendLine (s : State) (a : Access) : State := s.modGroup (groupOf a.lb) fun g => { g with waitq := g.waitq ++ [a] }

/-- A line access as a chuck issues it. -/
def lineAccess (agent rgn : Nat) (l : RowLine) (op : AccOp) (d : Dest) : Access :=
  { agent := agent, la := l.la, lb := l.lb, ix := l.ix, phys := none, rgn := rgn, age := 0, esc := false, resv := false,
    since := none, op := op, dest := d }

/-- Changes line `j` of row `i`. -/
def Req.modLine (r : Req) (i j : Nat) (f : RowLine → RowLine) : Req :=
  { r with rows := lmod r.rows i fun w => { w with lines := lmod w.lines j f } }

/-- Sets the state of line `j` of row `i` of a request. -/
def State.setLine (s : State) (p uid i j : Nat) (st : LineSt) : State :=
  s.modReq p uid fun r => r.modLine i j fun l => { l with st := st }

/-! ## The VP line cache (R132 to R134) -/

/-- The cache serves and allocates: `DISABLE` is 0 and the read has no `NOALLOC`. -/
def State.vpcOn (s : State) (p : Nat) (h : Hdr) : Bool := isVp p && !hNoalloc h && !s.bit (oVpcCtl p) 1

/-- A cached line moves to the front: most recently used first. -/
def State.vpcTouch (s : State) (p la : Nat) (data : List Byte) : State :=
  s.modPort p fun q =>
    let rest := q.vpc.filter fun e => e.1 != la
    let set := rest.filter fun e => e.1 % 512 == la % 512
    let rest := if set.length ≥ 8 then
        match set.getLast? with
        | some v => rest.filter fun e => e.1 != v.1
        | none => rest
      else rest
    { q with vpc := (la, data) :: rest }

/-- A line of a VP read has been read: counted, and allocated where the banks gave it without error and nothing later in header
order removed it; or its cached copy removed (R132 to R134). -/
def State.vpcFill (s : State) (p : Nat) (r : Req) (wasHeld bank : Bool) (la code : Nat) (data : List Byte) : State :=
  if !isVp p then s
  else
    let s := s.bump (oVpcMiss p) 47 0 1
    if s.vpcOn p r.h ∧ code = 0 ∧ bank ∧ !r.barred.contains la then s.vpcTouch p la data
    else if wasHeld then s.vpcDrop p [la] else s

/-! ## Reads (R123, R129, R132) -/

/-- Issues line `j` of row `i` of a read: from the cache, or to its group unless an earlier access to it waits. -/
def State.issueReadLine (p uid i : Nat) (fresh : Bool) (s : State) (j : Nat) : State :=
  let q := s.port p
  match q.req uid with
  | none => s
  | some r =>
    match (r.rows.getD i (Row.todo 0 [])).lines[j]? with
    | none => s
    | some l =>
      if l.st ≠ .todo then s
      else match (if s.vpcOn p r.h && !fresh then q.vpc.find? fun e => e.1 == l.la else none) with
        | some e => ((s.setLine p uid i j (.done 0 e.2)).vpcTouch p l.la e.2).bump (oVpcHit p) 47 0 1
        | none =>
          if q.lineBlocked uid l.la then s
          else (s.sendLine (lineAccess p r.rgn l .read (.req p uid i j))).setLine p uid i j .sent

/-- Issues row `i` of a read; a row that overlaps a range in force is held, and the rows after it wait (R123). The flag is
true while rows may still issue. -/
def State.issueReadRow (p uid : Nat) (st : State × Bool) (i : Nat) : State × Bool :=
  if !st.2 then st
  else match (st.1.port p).req uid with
    | none => (st.1, false)
    | some r =>
      let w := r.rows.getD i (Row.todo 0 [])
      if w.held then (st.1, false)
      else if w.lines.all (fun l => l.st == .todo) && !w.wasHeld && st.1.rowHeld w then
        (st.1.modReq p uid fun r => { r with rows := lmod r.rows i fun w => { w with held := true } }, false)
      else ((List.range w.lines.length).foldl (State.issueReadLine p uid i w.wasHeld) st.1, true)

/-- Issues what may issue of a read. -/
def State.issueRead (s : State) (p : Nat) (r : Req) : State :=
  ((List.range r.rows.length).foldl (State.issueReadRow p r.uid) (s.modReq p r.uid fun r => { r with phase := .active }, true)).1

/-! ## Writes and accumulates (R54, R55, R75, R179) -/

/-- The word-enable bit that covers byte `b` of a row, from its beats (R55). -/
def enabledAt (ww : Nat) (beats : List (List Byte × Nat)) (b : Nat) : Bool :=
  match beats[b / ww]? with
  | some (_, wen) => bitAt wen (b % ww / 8)
  | none => false

/-- Beats of delivered row `i` that have arrived. -/
def Req.rowBeats (r : Req) (i : Nat) : List (List Byte × Nat) := (r.beats.drop (i * r.beatsPer)).take r.beatsPer

/-- Delivered bytes of row `i` that have arrived, zeros standing for the rest. -/
def Req.rowData (r : Req) (ww i : Nat) : List Byte :=
  (r.rowBeats i).flatMap fun b => b.1.take ww ++ List.replicate (ww - b.1.length) 0

/-- Every beat of row `i` has arrived. -/
def Req.rowFull (r : Req) (i : Nat) : Bool := decide (r.beats.length ≥ (i + 1) * r.beatsPer)

/-- Every beat has arrived. -/
def Req.allFull (r : Req) : Bool := decide (r.beats.length ≥ r.beatRows * r.beatsPer)

/-- Element `c` of stored row `i` of a transposed write is element `i` of delivered row `c` (R75). -/
def Req.transposedRow (r : Req) (ww dfmt c i : Nat) : List Byte :=
  let db := delivBits dfmt / 8
  (List.range c).flatMap fun (k : Nat) => ((r.rowData ww k).drop (i * db)).take db

/-- The rounding of row `i` (R93). -/
def State.rounding (s : State) (r : Req) (byte : Nat) : Rounding :=
  { rnd := s.rgnRnd r.rgn, seed := s.rgnSeed r.rgn, ep := r.ep.getD 0, bit := 8 * byte }

/-- A stored row of a write, converted from what has arrived (R85 to R93). -/
def State.storedRow (s : State) (p : Nat) (r : Req) (i : Nat) : StoredRow :=
  let fmt := s.rgnFmt r.rgn
  let dfmt := hDfmt r.h
  let w := r.rows.getD i (Row.todo 0 [])
  let ww := widthW p
  let full := delivRow fmt dfmt r.rowLen
  let data := if hT r.h then r.transposedRow ww dfmt (rowElems fmt r.rowLen) i else r.rowData ww i
  storeRow fmt dfmt r.rowLen (s.rgnAnchor r.rgn) (s.rounding r w.byte) (data ++ List.replicate (full - data.length) 0)

/-- Delivered bytes that spell the first `b` stored bytes of a row, down to a whole element or MX block, or up to one (R87). -/
def delivPart (fmt dfmt b : Nat) (up : Bool) : Nat :=
  let div (x y : Nat) : Nat := if up then ceilDiv x y else x / y
  if dfmt ≥ 6 then b
  else if isMx fmt then div b (mxBlockBytes fmt) * 32 * (delivBits dfmt / 8)
  else div (8 * b) (storeBits fmt) * (delivBits dfmt / 8)

/-- The beats of row `i` that a line needs, from the first up to but not with the last: those of its own bytes; for an accumulate
and a scale line the whole row (R87, R106, R179). -/
def State.lineBeats (s : State) (p : Nat) (r : Req) (i : Nat) (l : RowLine) : Nat × Nat :=
  if isAcc (hOpc r.h) || l.scale then (0, r.beatsPer)
  else
    let fmt := s.rgnFmt r.rgn
    let byte := (r.rows.getD i (Row.todo 0 [])).byte
    let stop := min r.rowLen (128 * (l.la + 1) - byte)
    (delivPart fmt (hDfmt r.h) (128 * l.la - byte) false / widthW p,
     min r.beatsPer (ceilDiv (delivPart fmt (hDfmt r.h) stop true) (widthW p)))

/-- Data enough for a line of row `i` has arrived, the whole tile when transposed; and where rounding is stochastic the epoch has
been sampled (R145). -/
def State.lineReady (s : State) (p : Nat) (r : Req) (i : Nat) (l : RowLine) : Bool :=
  (s.rgnRnd r.rgn != 1 || r.ep.isSome) &&
  if hT r.h then r.allFull else decide ((s.lineBeats p r i l).2 ≤ (r.rowBeats i).length)

/-- The bytes of a run of row bytes, starting at byte `byte` of memory, that fall into line `la`: offset and value. -/
def lineCells (byte la : Nat) (bs : List Byte) (keep : Nat → Bool) : Table Byte :=
  (List.range 128).filterMap fun (o : Nat) =>
    let a := 128 * la + o
    if a < byte then none
    else match bs[a - byte]? with
      | some v => if keep (a - byte) then some (o, v) else none
      | none => none

/-- What a line of row `i` of a write or accumulate does at its bank. -/
def State.lineOp (s : State) (p : Nat) (r : Req) (i : Nat) (l : RowLine) : AccOp :=
  let w := r.rows.getD i (Row.todo 0 [])
  let fmt := s.rgnFmt r.rgn
  let data := r.rowData (widthW p) i
  let db := delivBits (hDfmt r.h) / 8
  let elem (k : Nat) : Nat := natLE ((data.drop (k * db)).take db)
  if hOpc r.h = opAcc then
    .add32 ((List.range 32).filterMap fun (e : Nat) =>
      let a := 128 * l.la + 4 * e
      if w.byte ≤ a ∧ a < w.byte + r.rowLen then some (e, toF32 (hDfmt r.h) (elem ((a - w.byte) / 4))) else none)
  else if hOpc r.h = opAccx then
    .addFx ((List.range 16).filterMap fun (e : Nat) =>
      let a := 128 * l.la + 8 * e
      if w.byte ≤ a ∧ a < w.byte + r.rowLen then
        let t := toFx64 (s.rgnAnchor r.rgn) ((delivElem (hDfmt r.h)).decode (elem ((a - w.byte) / 8)))
        some (e, t.1, t.2.1, t.2.2)
      else none)
  else
    let row := s.storedRow p r i
    if l.scale then .write (lineCells (s.scaleBase r.rgn + (s.blocksOf r.rgn w.byte r.rowLen).1) l.la row.scales fun _ => true)
      false false
    else
      let keep (b : Nat) : Bool := hOpc r.h != opWrp || enabledAt (widthW p) (r.rowBeats i) b
      let fl := (List.range 16).filterMap fun (e : Nat) =>
        let a := 128 * l.la + 8 * e
        if fmt = fmtFx64 ∧ w.byte ≤ a then row.flags[(a - w.byte) / 8]? else none
      .write (lineCells w.byte l.la row.bytes keep) (fl.any fun f => f.1) (fl.any fun f => f.2)

/-- Issues line `j` of row `i` of a write once its data is there and no earlier access to it waits. A line with no enabled
word has nothing to store. -/
def State.issueWriteLine (p uid i : Nat) (s : State) (j : Nat) : State :=
  let q := s.port p
  match q.req uid with
  | none => s
  | some r =>
    match (r.rows.getD i (Row.todo 0 [])).lines[j]? with
    | none => s
    | some l =>
      if l.st ≠ .todo ∨ !s.lineReady p r i l ∨ q.lineBlocked uid l.la then s
      else
        let op := s.lineOp p r i l
        if op = .write [] false false then s.setLine p uid i j (.done 0 [])
        else (s.sendLine (lineAccess p r.rgn l op (.req p uid i j))).setLine p uid i j .sent

/-- Row `i` of an accumulate comes to issue: the replay filter answers a row it has recorded (R179). -/
def State.filterRow (s : State) (p uid i : Nat) : State :=
  match (s.port p).req uid with
  | none => s
  | some r =>
    let w := r.rows.getD i (Row.todo 0 [])
    if !isAcc (hOpc r.h) || !r.rowFull i || w.filtered.isSome || w.lines.any (fun l => l.st != .todo) then s
    else
      let f := (tfind s.filters r.filt).getD Filter.empty
      let k := hTrow r.h + i
      if f.applied.getLsbD k then
        (s.modReq p uid fun r => { r with rows := lmod r.rows i fun w => { w with filtered := some (if f.failed.getLsbD k then 3 else 0) } }).bump
          oFiltered 47 0 1
      else s

/-- Issues row `i` of a write or accumulate. -/
def State.issueWriteRow (p uid : Nat) (s : State) (i : Nat) : State :=
  let s := s.filterRow p uid i
  match (s.port p).req uid with
  | none => s
  | some r =>
    let w := r.rows.getD i (Row.todo 0 [])
    if w.filtered.isSome then s else (List.range w.lines.length).foldl (State.issueWriteLine p uid i) s

/-- A `FINAL` write issues only after every earlier write and accumulate of the port has committed (R53). -/
def Port.finalMayIssue (q : Port) (r : Req) : Bool :=
  !hFinal r.h || (q.before r.uid).all (Req.visible 1)

/-- The lines of a cut accumulate's rows that have been issued in part go on to issue (R108, R180). -/
def State.issueBegun (s : State) (p : Nat) (r : Req) : State :=
  foldState (fun s (i : Nat) =>
    let w := r.rows.getD i (Row.todo 0 [])
    if w.lines.all fun l => l.st == .todo then s
    else (List.range w.lines.length).foldl (State.issueWriteLine p r.uid i) s) (List.range r.rows.length) s

/-- The epoch of a write is sampled at its acceptance, or where an order flag of it or of an earlier request still waits then,
in the cycle in which that wait ends (R145; DEDUCED, log 57). -/
def State.sampleEpoch (s : State) (p : Nat) (r : Req) : State :=
  if r.ep.isNone ∧ (s.port p).orderOpen r then s.modReq p r.uid fun x => { x with ep := some (s.epochOf (hCtx r.h)) } else s

/-- Issues what may issue of a write. -/
def State.issueWrite (s : State) (p : Nat) (r : Req) : State :=
  let s := s.sampleEpoch p r
  if !(s.port p).finalMayIssue r then s
  else (List.range r.rows.length).foldl (State.issueWriteRow p r.uid)
    (s.modReq p r.uid fun r => if r.phase = .waiting then { r with phase := .active } else r)

/-! ## Sync operations (R146, R149, R156) -/

/-- Sets a request's answer. -/
def State.answer (s : State) (p uid code : Nat) (info : Word) : State :=
  s.modReq p uid fun r => { r with ans := some (code, info), phase := .applied }

/-- Sets a request's phase. -/
def State.setPhase (s : State) (p uid : Nat) (ph : Phase) : State := s.modReq p uid fun r => { r with phase := ph }

/-- The modification record of a port's own operation. -/
def modifOf (p : Nat) (h : Hdr) : Modif := { port := p, rel := if hRel h then some (hScope h) else none, iid := none }

/-- Evaluates a wait (R62, R149): its condition holds, or it is registered, or it is held for want of an entry. -/
def State.evalWait (s : State) (p : Nat) (r : Req) : State :=
  let flag := hOpc r.h == opFlgWait
  let w : Waiter :=
    { uid := r.uid, port := p, ctx := hCtx r.h, tag := hTag r.h, isFlag := flag, phys := r.sync, sid := hSid r.h,
      thr := BitVec.ofNat 64 (hValue r.h), cond := hCond r.h, yield := hYield r.h, wline := hWline r.h,
      acq := if hAcq r.h then some (hScope r.h) else none, met := none, told := none, queued := false }
  let info : Word := if flag then BitVec.ofNat 64 (b2n (s.flg r.sync).val) else (s.ctr r.sync).val
  if s.waitHolds w then
    let m := if flag then (s.flg r.sync).mod else (s.ctr r.sync).mod
    let s := if hAcq r.h then s.observe flag r.sync m p (hScope r.h) else s
    s.answer p r.uid 0 info
  else if (s.waiters.filter fun v => v.port == p).length ≥ 256 then s.setPhase p r.uid .held
  else ({ s with waiters := s.waiters ++ [w] }.answer p r.uid 2 info).setPhase p r.uid .yielded

/-- Adds `v` to counter n for request `r`, or holds the operation at its ring's bound, counted once (R156). -/
def State.evalAdd (s : State) (p : Nat) (r : Req) (n v : Nat) : Option State :=
  if s.fits n v then some (s.addCtr n v (modifOf p r.h))
  else none

/-- Enters a range in the lowest free entry, or answers `RETRY`, which ends its hold on the region (R122). -/
def State.evalRangeOpen (s : State) (p : Nat) (r : Req) : State :=
  match (List.range 256).find? fun i => !s.sbValid i with
  | none => (s.bump oSbFull 31 0 1).answer p r.uid 1 0
  | some i =>
    let a := firstWord r.h
    let e := 2 ^ 63 + p * 2 ^ 59 + hCtx r.h * 2 ^ 49 + (a + hExt r.h) / 16 % 2 ^ 23 * 2 ^ 23 + a / 16
    let s := s.setReg (oSbEnt i) (BitVec.ofNat 64 e)
    let s := s.raise oSbStat 24 16 s.sbOpen
    (s.modReq p r.uid fun r => { r with holds := false }).answer p r.uid 0 (BitVec.ofNat 64 i)

/-- Judges a close (R125): `BUSY`, or closing. -/
def State.evalRangeClose (s : State) (p : Nat) (r : Req) : State :=
  let i := fld (hSid r.h) 7 0
  if !s.sbValid i ∨ s.tab (oSbEnt i) 58 49 ≠ hCtx r.h ∨ s.sbClosing i then s.answer p r.uid 11 0
  else s.setPhase p r.uid .closing

/-- The sync engine evaluates a waiting sync operation of a port (Table 7.5). -/
def State.evalSync (s : State) (p : Nat) (r : Req) : State :=
  let o := hOpc r.h
  let m := modifOf p r.h
  if o = opCntAdd ∧ r.sync < 65536 then
    let v := hValue r.h
    match s.evalAdd p r r.sync v with
    | some t => t.answer p r.uid 0 (t.ctr r.sync).val
    | none => (if r.phase = .held then s else s.bump oHold 31 0 1).setPhase p r.uid .held
  else if o = opCntAdd ∨ ((o = opFlgSet ∨ o = opFlgClr) ∧ 65536 ≤ r.sync) then s.setPhase p r.uid .active
  else if o = opFlgSet ∨ o = opFlgClr then
    (s.putFlg r.sync (o == opFlgSet) m).answer p r.uid 0 (BitVec.ofNat 64 (b2n (s.flg r.sync).val))
  else if o = opCntRd then
    let c := s.ctr r.sync
    (if hAcq r.h then s.observe false r.sync c.mod p (hScope r.h) else s).answer p r.uid 0 c.val
  else if o = opFlgTest then
    let f := s.flg r.sync
    (if hAcq r.h then s.observe true r.sync f.mod p (hScope r.h) else s).answer p r.uid 0 (BitVec.ofNat 64 (b2n f.val))
  else if isWait o then s.evalWait p r
  else if o = opRangeOpen then s.evalRangeOpen p r
  else if o = opRangeClose then s.evalRangeClose p r
  else if o = opStreamOpen then s.answer p r.uid 0 0
  else if o = opStreamClose then
    ((s.dropRgn r.rgn).modReq p r.uid fun r => { r with holds := false }).answer p r.uid 0 0
  else if o = opStreamStep then s.setPhase p r.uid .active
  else s

/-- Another sync operation of the port is held at the sync engine's input (R149, R156). -/
def Port.syncHeld (q : Port) (uid : Nat) : Bool := q.reqs.any fun r => r.phase == .held && r.uid != uid

/-! ## Load space (R269) -/

/-- Byte a of load space. -/
def State.loadByte (s : State) (a : Nat) : Byte :=
  if a < 2 ^ 20 then tget 0 s.fw.mem a else tget 0 s.fw.hdr (a - 2 ^ 20)

/-- Stores a byte of load space. -/
def State.putLoad (s : State) (a : Nat) (b : Byte) : State :=
  if a < 2 ^ 20 then { s with fw := { s.fw with mem := tset s.fw.mem a b } }
  else { s with fw := { s.fw with hdr := tset s.fw.hdr (a - 2 ^ 20) b } }

/-- Stores a run of bytes of load space. -/
def State.putLoadRun (s : State) (a : Nat) : List Byte → State
  | [] => s
  | b :: bs => (s.putLoad a b).putLoadRun (a + 1) bs

/-- A load-space request once its data is there: rows stored, or read. -/
def State.issueLoad (s : State) (p : Nat) (r : Req) : State :=
  if isWrite (hOpc r.h) then
    if r.allFull then
      (foldState (fun s (i : Nat) =>
        s.putLoadRun (r.rows.getD i (Row.todo 0 [])).byte ((r.rowData (widthW p) i).take r.rowLen))
        (List.range r.rows.length) s).answer p r.uid 0 0
    else s
  else
    s.modReq p r.uid fun q =>
      { q with phase := .active,
               rows := q.rows.map fun w =>
                 { w with lines := [{ la := 0, lb := 0, ix := 0, scale := false,
                                      st := .done 0 ((List.range r.rowLen).map fun (i : Nat) => s.loadByte (w.byte + i)) }] } }

/-- A checker-space request: its line at the physical bank's switch, once a write's image is there (R231 to R233). -/
def State.issueChecker (s : State) (p : Nat) (r : Req) : State :=
  match r.rows.map fun w => (w.byte, w.lines) with
  | [(pb, [l])] =>
    if l.st ≠ .todo ∨ (isWrite (hOpc r.h) ∧ !r.allFull) then s
    else
      let img := (r.rowData (widthW p) 0).take 256
      let op : AccOp := if isWrite (hOpc r.h) then .write ((List.range 256).zip img) false false else .read
      (s.sendLine { lineAccess p 0 l op (.checker r.uid) with phys := some pb }).setLine p r.uid 0 0 .sent
  | _ => s

/-! ## Issue -/

/-- Issues a request as far as it may go. -/
def State.issue (p : Nat) (s : State) (uid : Nat) : State :=
  let q := s.port p
  match q.req uid with
  | none => s
  | some r =>
    if r.cut.isSome then (if isAcc (hOpc r.h) then s.issueBegun p r else s)
    else if r.ans.isSome ∨ !q.mayIssue r then s
    else if r.space = 2 then s.issueLoad p r
    else if r.space = 1 then s.issueChecker p r
    else if r.space = 3 then s.setPhase p uid .active
    else if isRead (hOpc r.h) then s.issueRead p r
    else if isWrite (hOpc r.h) then s.issueWrite p r
    else if isSync (hOpc r.h) ∧ r.phase = .waiting ∧ (q.released r ∨ hOpc r.h = opRangeClose) ∧ !q.syncHeld uid then s.evalSync p r
    else s

/-! ## Answers -/

/-- A write that has finished, with its code: cut, or every line at its end and its counter advanced or given up (R53, R58).
A cut request whose operations all completed carries its own code when fenced (R291). -/
def Req.writeCode (r : Req) : Option Nat :=
  let whole := r.rows.all (Row.every LineSt.over)
  let fin := hFinal r.h && !hRmt r.h
  match r.cut with
  | some c =>
    if r.inFlight then none
    else if c = 8 then some (if whole && r.allFull && !(fin && !r.advanced) then r.linesCode else 8)
    else some (worst c r.linesCode)
  | none =>
    if !whole || !r.allFull then none
    else if fin && !r.advanced && r.allStored then none
    else some r.linesCode

/-- The bytes of a finished line, zeros for one that failed. -/
def RowLine.bytes (l : RowLine) : List Byte :=
  match l.st with
  | .done 0 d => d
  | _ => zeroLine

/-- A stored row's bytes from its lines, for a run of bytes at `byte`; scale lines apart. -/
def rowBytes (w : Row) (len : Nat) : List Byte :=
  let ls := w.lines.filter fun l => !l.scale
  ((ls.flatMap RowLine.bytes).drop (w.byte % 128)).take len

/-- The scale bytes of a row's blocks. -/
def State.rowScales (s : State) (n : Nat) (w : Row) (len : Nat) : List Nat :=
  if !isMx (s.rgnFmt n) then []
  else
    let k := s.blocksOf n w.byte len
    let bytes := (w.lines.filter fun l => l.scale).flatMap RowLine.bytes
    ((bytes.drop ((s.scaleBase n + k.1) % 128)).take (k.2 + 1 - k.1)).map fun b => b.toNat

/-- Cuts delivered bytes into beats of `w` bytes, the last padded with zeros (R56). -/
def beatsOf (w : Nat) (data : List Byte) : Nat → List (List Byte)
  | 0 => []
  | n + 1 => (data.take w ++ List.replicate (w - data.length) 0) :: beatsOf w (data.drop w) n

/-- Drives the beats of one row on the read lane; `last` marks the request's last row. -/
def State.driveRow (s : State) (p tag code : Nat) (last : Bool) (data : List Byte) : State :=
  let n := max 1 (ceilDiv data.length (widthR p))
  let bs := beatsOf (widthR p) data n
  (foldState (fun s (b : Nat × List Byte) => s.drive (.rspR p code tag (last && b.1 + 1 == n) b.2)) ((List.range n).zip bs) s).modPort
    p fun q => { q with progress := true }

/-- The delivered bytes of row `i` of a read that has all its lines (R58, R88). -/
def State.delivered (s : State) (r : Req) (i : Nat) : List Byte :=
  let w := r.rows.getD i (Row.todo 0 [])
  if r.space = 0 then
    deliverRow (s.rgnFmt r.rgn) r.dfmt (s.rgnAnchor r.rgn) (rowBytes w r.rowLen) (s.rowScales r.rgn w r.rowLen)
  else (w.lines.flatMap fun l => match l.st with | .done _ d => d | _ => []).take r.rowLen

/-- Bytes of each delivered row of a read. -/
def State.delivLen (s : State) (r : Req) : Nat := if r.space = 0 then delivRow (s.rgnFmt r.rgn) r.dfmt r.rowLen else r.rowLen

/-- Code and bytes of delivered row `i` of a read, as many zeros for `ECC` (R56, R58). -/
def State.readRow (s : State) (r : Req) (i : Nat) : Nat × List Byte :=
  let w := r.rows.getD i (Row.todo 0 [])
  if w.code = 0 then (0, s.delivered r i) else (w.code, List.replicate (s.delivLen r) 0)

/-- Delivered row `c` of a transposed tile: element `c` of every stored row, `ECC` if one of their lines failed (R75). The
lines of an element are those of its byte, and its block's scale line. -/
def State.transposedRead (s : State) (r : Req) (c : Nat) : Nat × List Byte :=
  let db := delivBits (hDfmt r.h) / 8
  let fmt := s.rgnFmt r.rgn
  let part (i : Nat) : Nat × List Byte :=
    let w := r.rows.getD i (Row.todo 0 [])
    let byte := w.byte + c * storeBits fmt / 8
    let stop := w.byte + ((c + 1) * storeBits fmt + 7) / 8 - 1
    let scaleAt := s.scaleBase r.rgn + (s.blocksOf r.rgn byte 1).1
    let bad := w.lines.any fun l =>
      (match l.st with | .done d _ => d != 0 | _ => false) &&
      (if l.scale then l.la == scaleAt / 128 else decide (byte / 128 ≤ l.la ∧ l.la ≤ stop / 128))
    (if bad then 3 else 0, ((s.delivered r i).drop (c * db)).take db)
  let parts := (List.range r.rows.length).map part
  if parts.any fun x => x.1 != 0 then (3, List.replicate (r.rows.length * db) 0) else (0, parts.flatMap fun x => x.2)

/-- Removes an answered request: its region is released (R38), its tile's filter entry with `DONE` (R181). -/
def State.retire (s : State) (p : Nat) (r : Req) : State :=
  let s := s.modPort p fun q =>
    { q with reqs := q.reqs.filter fun x => x.uid != r.uid, laneR := q.laneR.filter (· != r.uid), laneA := q.laneA.filter (· != r.uid) }
  let s := if r.holds then s.dropRgn r.rgn else s
  if isAcc (hOpc r.h) && hDone r.h && r.phase != .refused then { s with filters := tdel s.filters r.filt } else s

/-- The `YIELD` of a registered wait has been driven (R62). -/
def State.tellWait (s : State) (uid : Nat) : State :=
  { s with waiters := s.waiters.map fun w => if w.uid == uid then { w with told := some s.now } else w }

/-- Drives the head of the acknowledgement lane if it is ready. `n` bounds the responses driven. -/
def State.drainA (s : State) (p : Nat) : Nat → State
  | 0 => s
  | n + 1 =>
    let q := s.port p
    match q.laneA with
    | [] => s
    | uid :: _ =>
      match q.req uid with
      | none => s
      | some r =>
        let out : Option (Nat × Word) :=
          if r.ans.isSome then r.ans
          else if hOpc r.h = opFence then
            (if r.cut.isSome then some (8, 0) else if (q.before uid).isEmpty then some (0, 0) else none)
          else if isWrite (hOpc r.h) && r.space != 3 then
            r.writeCode.map fun c => (c, BitVec.ofNat 64 (b2n (hOpc r.h == opAccx && r.fxSeen)))
          else match r.cut with
            | some c => if c = 8 ∨ r.outPk = 0 then some (c, 0) else none
            | none => none
        match out with
        | none => s
        | some (c, info) =>
          let s := (s.drive (.rspA p c (hTag r.h) info)).modPort p fun q => { q with progress := true }
          let s := if r.phase = .yielded then s.tellWait uid else s
          (s.retire p r).drainA p n

/-- Drives as many rows of a read as are ready, from row `driven` on. -/
def State.driveRows (s : State) (p uid : Nat) : Nat → State
  | 0 => s
  | n + 1 =>
    match (s.port p).req uid with
    | none => s
    | some r =>
      let total := if hT r.h then rowElems (s.rgnFmt r.rgn) r.rowLen else r.rows.length
      let ready := if hT r.h then r.rows.all (Row.every LineSt.over)
        else (r.rows.getD r.driven (Row.todo 0 [])).every LineSt.over
      if !ready ∨ total ≤ r.driven then s
      else
        let x := if hT r.h then s.transposedRead r r.driven else s.readRow r r.driven
        let s := s.driveRow p (hTag r.h) x.1 (r.driven + 1 == total) x.2
        (s.modReq p uid fun r => { r with driven := r.driven + 1 }).driveRows p uid n

/-- Delivered rows a read still owes. -/
def State.rowsLeft (s : State) (r : Req) : Nat :=
  (if hT r.h then rowElems (s.rgnFmt r.rgn) r.rowLen else r.rows.length) - r.driven

/-- Drives the head of the read lane as far as it is ready. -/
def State.drainR (s : State) (p : Nat) : Nat → State
  | 0 => s
  | n + 1 =>
    match (s.port p).laneR with
    | [] => s
    | uid :: _ =>
      match (s.port p).req uid with
      | none => s
      | some r =>
        match r.ans with
        | some (c, _) => ((s.driveRow p (hTag r.h) c true []).retire p r).drainR p n
        | none =>
          if hOpc r.h = opStreamStep ∧ r.rows = [] then
            (match r.cut with
             | some c => ((s.driveRow p (hTag r.h) c true []).retire p r).drainR p n
             | none => s)
          else
            let s := s.driveRows p uid (s.rowsLeft r)
            match (s.port p).req uid with
            | none => s
            | some r =>
              if s.rowsLeft r = 0 then (s.retire p r).drainR p n
              else match r.cut with
                | some c =>
                  if r.inFlight then s else ((s.driveRow p (hTag r.h) c true []).retire p r).drainR p n
                | none => s

/-- Drives both lanes of a port as far as they are ready. -/
def State.drain (s : State) (p : Nat) : State :=
  let n := (s.port p).reqs.length
  ((s.drainR p n).drainA p n).drainR p n

/-- Records a row of an accumulate in the replay filter once every line of it has committed or failed (R179). -/
def State.recordRow (p uid : Nat) (s : State) (i : Nat) : State :=
  match (s.port p).req uid with
  | none => s
  | some r =>
    let w := r.rows.getD i (Row.todo 0 [])
    if !isAcc (hOpc r.h) || w.filtered.isSome || !w.lines.all (fun l => l.st.settled) then s
    else
      let f := (tfind s.filters r.filt).getD Filter.empty
      let b := BitVec.ofNat 1024 (2 ^ (hTrow r.h + i))
      let f := { f with applied := f.applied ||| b,
                        failed := if w.code = 3 then f.failed ||| b else f.failed }
      if (tfind s.filters r.filt).isSome then { s with filters := tset s.filters r.filt f } else s

/-! ## Write-data credits (R59) -/

/-- Beat `k` of a request has been converted and handed on: to the crossbar with the lines that need it, to the transpose network
with the tile (log 58), to the RP with its segments, to the core memory with the whole write. -/
def State.beatGone (s : State) (p : Nat) (r : Req) (k : Nat) : Bool :=
  let i := k / r.beatsPer
  let j := k % r.beatsPer
  let w := r.rows.getD i (Row.todo 0 [])
  if r.cut.isSome || r.ans.isSome || hT r.h then true
  else if r.space = 3 then
    let b := ceilDiv r.rowLen 128
    decide (min r.rowLen ((j + 1) * widthW p) ≤ 128 * (r.segs - i * b))
  else if r.space = 2 then false
  else if r.space = 1 then w.lines.all fun l => l.st != .todo
  else w.filtered.isSome || w.lines.all fun l =>
    let b := s.lineBeats p r i l
    l.scale || l.st != .todo || !decide (b.1 ≤ j ∧ j < b.2)

/-- Returns the write-data credits of the beats that have gone. -/
def State.payBeats (p : Nat) (s : State) (uid : Nat) : State :=
  match (s.port p).req uid with
  | none => s
  | some r =>
    let n := ((List.range r.beats.length).filter (s.beatGone p r)).length
    if n ≤ r.paid then s
    else foldState (fun s _ => s.retWd p) (List.range (n - r.paid)) (s.modReq p uid fun x => { x with paid := n })

/-- Everything a port's requests can do now: issue in order, record, return credits, answer. -/
def State.settle (s : State) (p : Nat) : State :=
  let pass (s : State) : State :=
    let s := (s.port p).reqs.foldl (fun s r => s.issue p r.uid) s
    let s := (s.port p).reqs.foldl (fun s r => if isAcc (hOpc r.h) then
      (List.range r.rows.length).foldl (State.recordRow p r.uid) s else s) s
    let s := (s.port p).reqs.foldl (fun s r => if r.beats.isEmpty then s else s.payBeats p r.uid) s
    s.drain p
  pass (pass s)

/-- Ports that carry requests. -/
def partnerPorts : List Nat := [0, 1, 2, 3, 4, 5, 6, 7, 8, 9, 12]

/-- Every port's requests go as far as they can. -/
def State.settleAll (s : State) : State := foldState (fun s p => s.settle p) partnerPorts s

end Sys2Proof.Machine
end

