-- ==== Sys2Proof/Machine/LinkOps.lean ====
section
/-! DEFINITION. The link side of RP and TP (R49): packets sent on transmit credits, packets taken in on receive credits; the
twin's await table (§9.8 to §9.11), the dirty map, and what the end of a line access does for its issuer. -/
namespace Sys2Proof.Machine

/-! ## Transmit and receive -/

/-- The link of RP or TP. -/
def State.link (s : State) (tp : Bool) : Link := if tp then s.tp.link else s.rp.link

def State.setLink (s : State) (tp : Bool) (l : Link) : State :=
  if tp then { s with tp := { s.tp with link := l } } else { s with rp := { s.rp with link := l } }

/-- RP and TP may issue in this cycle under the gating of class LINK (Table 11.4). -/
def State.linkCycle (s : State) : Bool := decide (s.cyc % 8 < 8 - s.field oGate 19 16)

/-- A packet may be driven now: the link is up, a credit is there, nothing waits before it, the cycle is not gated, and no
packet has been driven in it (R49). -/
def State.canSend (s : State) (tp : Bool) : Bool :=
  let l := s.link tp
  l.up && decide (0 < l.txCrd) && l.txq.isEmpty && s.linkCycle && !l.sentNow

/-- Drives a packet on a transmit credit, or queues it. -/
def State.send (s : State) (tp : Bool) (h : Pkt) (data : List Byte) : State :=
  let l := s.link tp
  if s.canSend tp then (s.setLink tp { l with txCrd := l.txCrd - 1, sentNow := true }).drive (.ltx tp h data)
  else s.setLink tp { l with txq := l.txq ++ [(h, data)] }

/-- Drives the oldest queued packet where the cycle and the credits allow it. -/
def State.flushLink (s : State) (tp : Bool) : State :=
  let l := s.link tp
  match l.txq with
  | [] => s
  | (h, d) :: rest =>
    if l.up ∧ 0 < l.txCrd ∧ s.linkCycle ∧ !l.sentNow then
      (s.setLink tp { l with txCrd := l.txCrd - 1, txq := rest, sentNow := true }).drive (.ltx tp h d)
    else s

/-- Port number of RP or TP. -/
def linkPort (tp : Bool) : Nat := if tp then 11 else 10

/-- Returns receive credits the TM3 owes, up to 64: none at RP while the timed queue is full (R162). -/
def State.repayLink (s : State) (tp : Bool) : State :=
  let l := s.link tp
  if !l.up ∨ (!tp ∧ 512 ≤ s.timedQ.length) then s
  else
    let s1 := s.setLink tp { l with rxCrd := 64 }
    (List.range (64 - l.rxCrd)).foldl (fun s _ => s.drive (.lrxCrd tp)) s1

/-! ## Twin state (§9.7 to §9.11) -/

def twinUp : Nat := 1
def twinDown : Nat := 2
def twinResync : Nat := 3

/-- `TWIN.STAT.STATE`. -/
def State.twin (s : State) : Nat := s.field oTwinStat 63 62
def State.peer (s : State) : Nat := s.field oTwinStat 14 0

/-- Twin-region commits are mirrored (R205, R210). -/
def State.mirrors (s : State) : Bool := s.twin == twinUp || s.twin == twinResync

/-- Marks the 64 KiB unit of a line in the dirty map (R209). -/
def State.markDirty (s : State) (la : Nat) : State := { s with tp := { s.tp with dirty := tset s.tp.dirty (la / 512) true } }

/-- A `TWRITE`, a `TFETCH`, a control message among what awaits an answer: each kind counts its own tags (log 28). -/
def TAwait.isMirror (w : TAwait) : Bool := !w.fetch
def TAwait.isFetch (w : TAwait) : Bool := w.fetch && !kBit4 w.h
def TAwait.isControl (w : TAwait) : Bool := w.fetch && kBit4 w.h

/-- The lowest `TTAG` that no packet of a kind under way has. -/
def State.newTtag (s : State) (kind : TAwait → Bool) : Nat :=
  ((List.range 1024).find? fun t => !s.tp.await.any fun w => kind w && w.sent && w.ttag == t).getD 0

/-- Packets of a kind that have been sent and await their answer. -/
def State.sentOf (s : State) (kind : TAwait → Bool) : Nat := (s.tp.await.filter fun w => kind w && w.sent).length

/-- Mirrors that await their `TACK`, those the TP chuck still holds included. -/
def State.mirrorsOut (s : State) : Nat := (s.tp.await.filter TAwait.isMirror).length

/-- Header of a TP packet about a line. -/
def State.tpHdr (s : State) (type rgn la ttag : Nat) : Pkt :=
  mkPkt [(0, type), (8, s.iid), (23, s.peer), (38, rgn), (46, la), (69, ttag)]

/-- Puts an entry at the end of the await table, and sends its packet unless it is held. -/
def State.await (s : State) (w : TAwait) : State :=
  let s := { s with tp := { s.tp with await := s.tp.await ++ [w] } }
  if w.sent then s.send true w.h w.data else s

/-- Sends a `TWRITE` of a line, or holds it behind an earlier one to the same line, or while 1,024 are out (R205). `fx` are the
flags of a line that the twin alone stores. -/
def State.sendMirror (s : State) (rgn la lb ix : Nat) (data : List Byte) (d : Dest) (fx : Bool × Bool) : State :=
  let t := s.newTtag TAwait.isMirror
  let wait := (s.tp.await.any fun w => w.isMirror && w.la == la) || decide (1024 ≤ s.sentOf TAwait.isMirror)
  s.await { ttag := t, fetch := false, h := s.tpHdr 8 rgn la t, data := data, la := la, lb := lb, ix := ix, dest := d, sent := !wait,
            since := s.turn, retryAt := none, noticed := false, redo := none, copy := none, fx := fx }

/-- Sends a `TFETCH` for a line that cannot be read here (R208), or holds it while 1,024 are out. -/
def State.sendFetch (s : State) (rgn la lb ix : Nat) (d : Dest) (redo : Option Access) : State :=
  let t := s.newTtag TAwait.isFetch
  s.await { ttag := t, fetch := true, h := s.tpHdr 10 rgn la t, data := [], la := la, lb := lb, ix := ix, dest := d,
            sent := decide (s.sentOf TAwait.isFetch < 1024), since := s.turn, retryAt := none, noticed := false, redo := redo,
            copy := none, fx := (false, false) }

/-- Sends an entry that was held, under a tag of its own. -/
def State.sendHeld (s : State) (kind : TAwait → Bool) (w : TAwait) : State :=
  if 1024 ≤ s.sentOf kind then s
  else
    let t := s.newTtag kind
    let v := { w with sent := true, since := s.turn, ttag := t, h := s.tpHdr (kType w.h) (kRgn w.h) w.la t }
    { s with tp := { s.tp with await := s.tp.await.replace w v } }.send true v.h v.data

/-- Forgets an awaited answer. -/
def State.dropAwait (s : State) (w : TAwait) : State := { s with tp := { s.tp with await := s.tp.await.erase w } }

/-- Once a mirror is answered, the next held one goes out: the first of its line (R205). -/
def State.sendNextMirror (s : State) : State :=
  match s.tp.await.find? fun w => w.isMirror && !w.sent && (s.tp.await.find? fun x => x.isMirror && x.la == w.la) == some w with
  | some w => s.sendHeld TAwait.isMirror w
  | none => s

/-- Once a fetch is answered, the next held one goes out. -/
def State.sendNextFetch (s : State) : State :=
  match s.tp.await.find? fun w => w.isFetch && !w.sent with
  | some w => s.sendHeld TAwait.isFetch w
  | none => s

/-! ## The end of a line access -/

/-- Answers a mirror write or a fetch of the peer: `TACK` or `TDATA` echoing the packet (Table 9.9). -/
def State.answerTp (s : State) (h : Pkt) (type code : Nat) (blank : Bool) (data : List Byte) : State :=
  let k := mkPkt [(0, type), (4, if type = 11 then b2n (kBit4 h) else 0), (8, s.iid), (23, kSiid h), (38, kRgn h),
    (46, kLa h), (69, kTtag h), (79, code), (83, b2n blank)]
  s.send true k data

/-- A batch entry with one packet more done, with its code (R195). -/
def State.batchDone (s : State) (b code : Nat) : State :=
  match tfind s.rp.batches b with
  | none => s
  | some e =>
    { s with rp := { s.rp with batches := tset s.rp.batches b { e with done := e.done + 1, worst := worst e.worst code } } }

/-- A line of an accepted data packet has ended with a code: the last one makes the packet done (R195) and leaves the
window's `PENDING` (R186). -/
def State.packetLine (s : State) (pk code : Nat) : State :=
  match s.rp.fly.find? fun f => f.id == pk with
  | none => s
  | some f =>
    let c := worst f.code code
    if f.left > 1 then
      { s with rp := { s.rp with fly := s.rp.fly.map fun x => if x.id == pk then { x with left := x.left - 1, code := c } else x } }
    else
      let s := { s with rp := { s.rp with fly := s.rp.fly.filter fun x => x.id != pk } }
      let s := match f.batch with
        | some b => s.batchDone b c
        | none => s
      s.setFld (oSnd f.win) 47 32 (s.tab (oSnd f.win) 47 32 - 1)

/-- A resync read has come back at its source: the line goes to the peer, or the resync fails (R210). -/
def State.resyncLine (s : State) (la code : Nat) (data : List Byte) : State :=
  match s.tp.resync with
  | none => s
  | some q =>
    if code ≠ 0 then { s with tp := { s.tp with resync := some { q with failed := true } } }
    else
      let n := (s.regionAt (la * 16)).getD 0
      let pl := s.place n la
      s.sendMirror n la pl.1 pl.2 data .resync (false, false)

/-- Every line of the row has come, one of them at least from the twin. -/
def Row.repairOver (w : Row) : Bool :=
  w.repaired && w.lines.all fun l => match l.st with
    | .done c _ => c == 0 || c == 12
    | _ => false

/-- Row `i` of a request or of a step of a stream, wherever it is. -/
def State.rowAt (s : State) (d : Dest) : Option Row :=
  match d with
  | .req p uid i _ => ((s.port p).req uid).bind fun r => r.rows[i]?
  | .stream p k gen step i _ =>
    let t := (s.port p).stream k
    if t.gen ≠ gen ∨ step < t.next then none else (t.fetched.getD (step - t.next) [])[i]?
  | _ => none

/-- Changes the row a line belongs to. -/
def State.modRow (s : State) (d : Dest) (f : Row → Row) : State :=
  match d with
  | .req p uid i _ => s.modReq p uid fun r => { r with rows := lmod r.rows i f }
  | .stream p k gen step i _ =>
    s.modPort p fun q =>
      let t := q.stream k
      if t.gen ≠ gen ∨ step < t.next then q
      else q.setStream k { t with fetched := lmod t.fetched (step - t.next) fun rows => lmod rows i f }
  | _ => s

/-- `TWIN.REPAIR.DONE` counts a row whose last line has come, once (R211). -/
def State.countRepair (s : State) (d : Dest) : State :=
  match s.rowAt d with
  | some w => if w.repairOver then (s.modRow d fun w => { w with repaired := false }).bump oRepair 31 0 1 else s
  | none => s

/-- A line has come from the twin: its row is noted; what is no row of a request or stream counts by itself. -/
def State.noteRepair (s : State) (d : Dest) : State :=
  match s.rowAt d with
  | some _ => s.modRow d fun w => { w with repaired := true }
  | none => s.bump oRepair 31 0 1

/-- Gives the outcome of a line access to its issuer: code and, for a read, the line. -/
def State.deliver (s : State) (d : Dest) (la code : Nat) (blank : Bool) (data : List Byte) : State :=
  match d with
  | .req p uid i j =>
    match (s.port p).req uid with
    | none => s
    | some r =>
      let w := r.rows.getD i (Row.todo 0 [])
      let bank := (w.lines[j]?.map fun l => l.st) != some .repair
      let s := if isRead (hOpc r.h) then s.vpcFill p r w.wasHeld bank la code data else s
      (s.setLine p uid i j (.done code data)).countRepair d
  | .stream _ _ _ _ _ j =>
    (s.modRow d fun w =>
      { w with lines := lmod w.lines j fun l => if l.st == .sent then { l with st := .done code data } else l }).countRepair d
  | .batch pk => s.packetLine pk code
  | .mirror h => s.answerTp h 9 code false []
  | .fetch h => s.answerTp h 11 code blank (if code = 0 then data else [])
  | .resync => s.resyncLine la code data
  | .checker uid => s.setLine 12 uid 0 0 (.done code data)
  | .copy _ => s
  | .shaving _ => s

/-- A committed twin-region line waits for its mirror: the issuer's line is at its visibility point here (Table 6.1). -/
def State.awaitMirror (s : State) (d : Dest) : State :=
  match d with
  | .req p uid i j => s.setLine p uid i j .mirror
  | _ => s

/-- A line that cannot be read here waits for its copy from the twin (R208). -/
def State.awaitRepair (s : State) (d : Dest) : State :=
  match d with
  | .req p uid i j => s.setLine p uid i j .repair
  | _ => s

/-- An accumulate or a write into FX64 set `ovf_seen` or `nan_seen` on a line that was stored (R171). -/
def State.fxSeen (s : State) (rgn : Nat) (ovf nan : Bool) (d : Dest) : State :=
  if !ovf && !nan then s
  else
    let s := s.setBit (oAccOvf (rgn / 64)) (rgn % 64)
    let s := if ovf then s.setBit oAccErr 0 else s
    let s := if nan then s.setBit oAccErr 1 else s
    match d with
    | .req p uid _ _ => s.modReq p uid fun r => { r with fxSeen := true }
    | _ => s

/-! ## Answers of the owner (R191, R192, R199) -/

/-- Forgets an answered packet, and one still waiting for a transmit credit. -/
def State.dropSent (s : State) (ptag : Nat) : State :=
  let l := s.rp.link
  { s with rp := { s.rp with sendBuf := s.rp.sendBuf.filter fun w => w.ptag != ptag,
                             link := { l with txq := l.txq.filter fun e =>
                               !((kType e.1 == 1 || kType e.1 == 2) && kPtag e.1 == ptag) } } }

/-- `RNACK` of a packet. An answer to this instance itself, whose route never left it (R161), is taken at once: any code but OK
and `RETRY` sets `SIG_REF`, and `RETRY` is resent after one turn. -/
def State.rnack (s : State) (h : Pkt) (code : Nat) : State :=
  if kSiid h = s.iid then
    if code = 1 then
      let upd (w : Sent) : Sent := if w.ptag == kPtag h && w.uid.isNone then { w with retryAt := some (s.turn + 1) } else w
      { s with rp := { s.rp with sendBuf := s.rp.sendBuf.map upd } }
    else (if code = 0 then s else s.setBit oRmtErr 3).dropSent (kPtag h)
  else
    s.send false (mkPkt [(0, 3), (8, s.iid), (23, kSiid h), (38, kSport h), (42, kWin h), (50, kGen h), (66, kBseq h),
      (72, kPtag h), (81, code)]) []

/-- Refuses a packet, with the registers of Table 9.12. -/
def State.refusePkt (s : State) (h : Pkt) (code : Nat) : State :=
  let s :=
    if code = 9 then (s.bump oRmtLate 31 0 1).setFld oRmtLate 62 40 (kSiid h * 256 + kWin h)
    else if code = 1 then s
    else (s.bump oRefused 31 0 1).setFld oRefused 35 32 code
  s.rnack h code

/-- Frees a batch entry; packets in flight no longer count in it. -/
def State.freeBatch (s : State) (b : Nat) : State :=
  { s with rp := { s.rp with batches := tdel s.rp.batches b,
                             fly := s.rp.fly.map fun f => if f.batch == some b then { f with batch := none } else f } }

end Sys2Proof.Machine
end

