-- ==== Sys2Proof/Machine/Banks.lean ====
section
/-! DEFINITION. One access at its bank (R15, R43, R176, R205 to R208, R214 to R220), spares and the end of a migration
(R226 to R229), faults of an array (R223). -/
namespace Sys2Proof.Machine

/-! ## One access at its bank -/

/-- Writes listed bytes over a line. -/
def overlay (old : List Byte) (cells : Table Byte) : List Byte :=
  (List.range 128).map fun (i : Nat) => (tfind cells i).getD (old.getD i 0)

/-- The bytes of words replaced in a line: `(element, value)` of `k` bytes each. -/
def putElems (k : Nat) (old : List Byte) (vs : List (Nat × Nat)) : List Byte :=
  vs.foldl (fun l v => l.take (k * v.1) ++ bytesLE k v.2 ++ l.drop (k * v.1 + k)) old

/-- binary32 accumulation into a line (R167): the addends are applied in order. -/
def accum32 (old : List Byte) (adds : List (Nat × Nat)) : List Byte :=
  adds.foldl (fun l a => putElems 4 l [(a.1, addF32 (natLE ((l.drop (4 * a.1)).take 4)) a.2)]) old

/-- FX64 accumulation into a line, with `ovf_seen` and `nan_seen` (R171). -/
def accumFx (old : List Byte) (adds : List (Nat × Nat × Bool × Bool)) : List Byte × Bool × Bool :=
  adds.foldl (fun (st : List Byte × Bool × Bool) a =>
    let r := addFx64 (natLE ((st.1.drop (8 * a.1)).take 8)) a.2.1
    (putElems 8 st.1 [(a.1, r.1)], st.2.1 || a.2.2.1 || r.2, st.2.2 || a.2.2.2)) (old, false, false)

/-- The access covers all 128 bytes, so that no old word is needed. -/
def AccOp.whole : AccOp → Bool
  | .write cells _ _ => decide (cells.length ≥ 128)
  | _ => false

/-- Reads and then writes the line (R15): a sub-line write or an accumulate. -/
def AccOp.merges : AccOp → Bool
  | .read => false
  | .write cells _ _ => decide (cells.length < 128)
  | .add32 _ => true
  | .addFx _ => true

def AccOp.isAdd : AccOp → Bool
  | .add32 _ => true
  | .addFx _ => true
  | _ => false

/-- The new line and its FX64 flags, from the old one. -/
def AccOp.apply (op : AccOp) (old : List Byte) : List Byte × Bool × Bool :=
  match op with
  | .read => (old, false, false)
  | .write cells ovf nan => (overlay old cells, ovf, nan)
  | .add32 adds => (accum32 old adds, false, false)
  | .addFx adds => accumFx old adds

/-- Commits a line of a logical bank with fresh codes: to the save buffer or array, and to the spare while migrating
(R214, R220, R228). -/
def State.commitLine (s : State) (lb ix la : Nat) (data : List Byte) : State :=
  let im := freshImage data la false
  let s := s.setImage (s.home lb ix) im
  if s.migrating lb then s.setImage (arrHome (s.dualOf lb) ix) im else s

/-- What follows a commit: the notice (R17), the FX64 flags, the mirror or the dirty mark, the answer to the issuer. -/
def State.committed (s : State) (a : Access) (data : List Byte) (ovf nan : Bool) : State :=
  let s := (s.fxSeen a.rgn ovf nan a.dest).notice a.la
  match a.dest with
  | .mirror _ => s.deliver a.dest a.la 0 false []
  | _ =>
    if !s.rgnTwin a.rgn then s.deliver a.dest a.la 0 false []
    else if s.mirrors then (s.awaitMirror a.dest).sendMirror a.rgn a.la a.lb a.ix data a.dest (false, false)
    else (s.markDirty a.la).deliver a.dest a.la (if s.bit oTwinCfg 0 then 0 else 12) false []

/-- A line that is not stored: an accumulate counts in `ACC.LOST` and sets `POISON` (R176). -/
def State.notStored (s : State) (a : Access) : State :=
  let s := if a.op.isAdd then (s.bump oAccLost 47 0 1).setBit oAccErr 2 else s
  s.deliver a.dest a.la 3 false []

/-- A repair that gives no good copy (R208). -/
def State.repairFailed (s : State) (a : Access) : State :=
  let s := (s.setBit oTwinErr 1).bump oRepair 63 32 1
  if a.op = .read then s.deliver a.dest a.la 3 false [] else s.notStored a

/-- A line of a twin region that cannot be read here: fetched from the twin while `STATE` is UP (R177, R208). Reads for the
peer itself are answered `ECC`, not repaired. -/
def State.repairLine (s : State) (a : Access) : State :=
  match a.dest with
  | .fetch _ => s.deliver a.dest a.la 3 false []
  | _ =>
    if s.twin ≠ twinUp then s.repairFailed a
    else (s.awaitRepair a.dest).sendFetch a.rgn a.la a.lb a.ix a.dest (if a.op = .read then none else some a)

/-- A write to a line of a DEAD bank (R43): lost, or in a twin region stored at the twin alone, whose answer completes it with
the conversion flags of its values (R171). -/
def State.deadWrite (s : State) (a : Access) : State :=
  match a.dest with
  | .mirror _ => s.deliver a.dest a.la 3 false []
  | _ =>
    if s.rgnTwin a.rgn && s.mirrors && !a.op.isAdd then
      if a.op.whole then
        let (d, fx) := a.op.apply zeroLine
        (s.awaitMirror a.dest).sendMirror a.rgn a.la a.lb a.ix d a.dest fx
      else s.repairLine a
    else s.notStored a

/-- The raw bytes of a line image, two beats (Table 10.6). -/
def State.rawImage (s : State) (h : Home) : List Byte :=
  s.imgRun h 0 149 ++ List.replicate 107 0

/-- A checker-space access (R232, R233). -/
def State.checkerAccess (s : State) (a : Access) (pb : Nat) : State :=
  let h := arrHome pb a.ix
  match a.op with
  | .write cells _ _ =>
    let b (i : Nat) : Byte := (tfind cells i).getD 0
    let im := (List.range 148).map b ++ [b 148 &&& 3]
    ({ s with mem := writeRun s.mem h.base im }.setBit oIntErr 13).deliver a.dest 0 0 false []
  | _ => s.deliver a.dest 0 0 false (s.rawImage h)

/-- The access is to a line of a twin region, which is repaired from the twin rather than poisoned (R217). -/
def State.twinLine (s : State) (a : Access) : Bool := a.phys.isNone && s.inRgn a.rgn (16 * a.la) && s.rgnTwin a.rgn

/-- The line address is known to the log: partner, FW and CP reads, and merges (Table 10.8). -/
def laKnown (agent : Nat) : Bool := decide (agent < 14)

/-- Delivers a read from a finding. -/
def State.readOutcome (s : State) (j : Judged) (a : Access) : State :=
  match j.data? with
  | some d => s.deliver a.dest a.la 0 (j == .blank) d
  | none => if s.twinLine a then s.repairLine a else s.deliver a.dest a.la 3 false []

/-- A granted access with the reads folded into it (R103): the old line serves the reads, then the write is performed. -/
def State.perform (s : State) (a : Access) (folded : List Access) : State :=
  match a.phys with
  | some pb => foldState (fun s f => s.checkerAccess f (f.phys.getD pb)) (a :: folded) s
  | none =>
    if s.dead a.lb then
      let s := foldState (fun s f => if s.twinLine f then s.repairLine f else s.deliver f.dest f.la 3 false []) folded s
      if a.op = .read then (if s.twinLine a then s.repairLine a else s.deliver a.dest a.la 3 false []) else s.deadWrite a
    else
      let h := s.home a.lb a.ix
      let needsOld := a.op = .read ∨ a.op.merges ∨ folded ≠ []
      let (s, j) := if needsOld then s.readLine a.agent h a.la (laKnown a.agent) (s.twinLine a) else (s, .blank)
      let s := foldState (fun s f => s.readOutcome j f) folded s
      if a.op = .read then s.readOutcome j a
      else if a.op.whole then
        let (d, ovf, nan) := a.op.apply zeroLine
        (s.commitLine a.lb a.ix a.la d).committed a d ovf nan
      else match j.data? with
        | some old =>
          let (d, ovf, nan) := a.op.apply old
          (s.commitLine a.lb a.ix a.la d).committed a d ovf nan
        | none => if s.twinLine a then s.repairLine a else s.notStored a

/-! ## Spares and DEAD banks (R43, R226 to R229) -/

/-- `INT.SPARE[s]` state field of a spare position. -/
def spareHi (pos : Nat) : Nat := if pos = 64 then 63 else 61

/-- A spare's state (Table 10.9): 0 FREE, 1 IN_USE, 2 MIGRATING, 3 FAILED. -/
def State.spareState (s : State) (sl pos : Nat) : Nat := s.field (oSpare sl) (spareHi pos) (spareHi pos - 1)
def State.setSpare (s : State) (sl pos st : Nat) : State := s.setFld (oSpare sl) (spareHi pos) (spareHi pos - 1) st

/-- The free spare of a slice at the lower position. -/
def State.freeSpare (s : State) (sl : Nat) : Option Nat := [64, 65].find? fun pos => s.spareState sl pos == 0

/-- A keep register that CC2 writes, while it runs (R23, R303). -/
def State.keepInt (s : State) (i : Nat) (v : Word) : State := if s.coreRuns 2 then s.keepWrite i v else s

/-- A logical bank becomes DEAD (R43): recorded, logged, kept. -/
def State.makeDead (s : State) (lb : Nat) : State :=
  let pb := s.physOf lb
  let s := s.setFld (oRemap lb) 17 16 2
  let s := (s.setFld (oRemap lb) 14 8 0).setBit oIntErr 9
  let s := s.finding 7 14 pb 0 0 0 none
  let sl := sliceOf lb
  let s := s.keepInt (1 + 2 * sl) (wput (s.reg (oKeep (1 + 2 * sl))) (lb % 64) (lb % 64) 1)
  s.keepFault 8 0 sl 0 (s.reg (oRemap lb)).toNat

/-- Records the state of a slice's spares in the keep domain, `n` retirements counted (Table 13.7). -/
def State.keepSpares (s : State) (sl : Nat) (n : Nat) : State :=
  let o := 2 + 2 * sl
  let v := s.field (oSpare sl) 63 62 * 2 ^ 62 + s.field (oSpare sl) 61 60 * 2 ^ 60 + s.field (oSpare sl) 8 0 % 64 * 2 ^ 40
    + s.field (oSpare sl) 24 16 % 64 * 2 ^ 32 + min (s.field (oKeep o) 7 0 + n) 255
  s.keepInt o (BitVec.ofNat 64 v)

/-- The engine's accesses for a purpose leave the groups. -/
def State.dropEngine (s : State) (d : Dest) : State :=
  foldState (fun s g => s.modGroup g fun q =>
    { q with arriving := q.arriving.filter (fun a => a.dest != d), parked := q.parked.filter (fun a => a.dest != d) })
    (List.range s.nGroups) s

/-- A fault of either array aborts the slice's migration (R229). -/
def State.abortMigration (s : State) (sl : Nat) (spareFailed : Bool) : State :=
  match (s.slice sl).migr with
  | none => s
  | some m =>
    let s := (s.dropEngine (.copy sl)).makeDead m.lb
    let s := if spareFailed then s.setSpare sl m.spare 3 else s.setSpare sl m.spare 0
    let s := if m.old < 64 then s.setFld (oRetired sl) m.old m.old 1 else s.setSpare sl m.old 3
    let s := ((s.keepSpares sl 0).setBit oIntErr 8).modSlice sl fun q => { q with migr := none }
    match m.cmd with
    | some n => s.outcome n 3 3
    | none => s

/-- A hard fault of a logical bank's array waits for CC2 (R226). -/
def State.wantRetire (s : State) (lb : Nat) : State :=
  s.modSlice (sliceOf lb) fun q => if q.wantRetire.contains lb then q else { q with wantRetire := q.wantRetire ++ [lb] }

/-- A hard fault of a bank: its migration aborts where one runs (R229), else its retirement is due (R226). -/
def State.hardFault (s : State) (lb : Nat) : State :=
  match (s.slice (sliceOf lb)).migr with
  | some m => if m.lb = lb then s.abortMigration (sliceOf lb) false else s.wantRetire lb
  | none => s.wantRetire lb

/-- The logical bank that a physical bank serves. -/
def State.servedBy (s : State) (pb : Nat) : Option Nat :=
  ((List.range 64).map fun (i : Nat) => 64 * (pb / 66) + i).find? fun lb => !s.dead lb && s.physOf lb == pb

/-- A hard fault of an array (R223): of the bank it serves, of the spare of a migration (R229), or of a spare that serves none,
which is FAILED from then on. A retired array is out of service already. -/
def State.arrayFault (s : State) (pb : Nat) : State :=
  let sl := pb / 66
  let pos := pb % 66
  match s.servedBy pb with
  | some lb => s.hardFault lb
  | none =>
    if (s.slice sl).migr.any fun m => m.spare == pos then s.abortMigration sl true
    else if 64 ≤ pos ∧ s.spareState sl pos = 0 then (s.setSpare sl pos 3).keepSpares sl 0
    else s

/-- An access fault of physical bank `pb` (R223): logged, and a fault of the array. -/
def State.accessFault (s : State) (agent pb ix : Nat) (la : Option Nat) : State :=
  ((s.finding 5 agent pb ix 0 0 la).setBit oIntErr 12).arrayFault pb

end Sys2Proof.Machine
end

