-- ==== Sys2Proof/Machine/Engine.lean ====
section
/-! DEFINITION. The test engine of a slice (R111, R219 to R225, R282): the steps of Table 10.3, one access for each grant, the
restore, calibration, test runs, the tests of unused spares; the copies of a migration (R228). -/
namespace Sys2Proof.Machine

/-- Owner of slot i in the active or the shadow copy of a group. -/
def State.slotOwner (s : State) (g i : Nat) (shadow : Bool) : Nat :=
  s.field (if shadow then oSlotShd g (i / 16) else oSlotAct g (i / 16)) (4 * (i % 16) + 3) (4 * (i % 16))

/-- A group's active table names BT in some slot (R222). -/
def State.btSlot (s : State) (g : Nat) : Bool := (List.range 64).any fun i => s.slotOwner g i false == 14

/-! ## Lines of a shaving -/

/-- The pattern P of a line of a shaving: 0x55 on even lines, 0xAA on odd ones; its complement where asked. -/
def patternByte (line : Nat) (comp : Bool) : Byte := if (line % 2 == 1) != comp then 0xAA else 0x55

/-- Writes the pattern to all bits of a line but its valid and poison bits. -/
def State.putPattern (s : State) (h : Home) (b : Byte) : State :=
  let im := s.image h
  s.setImage h { im with data := List.replicate 128 b, chk := List.replicate 16 b, outer := natLE (List.replicate 4 b) }

/-- Ones among the low `n` bits. -/
def ones (n v : Nat) : Nat := ((List.range n).filter fun (i : Nat) => bitAt v i).length

/-- Bits of word `w` of a line, its 8 check bits above its 64 data bits, that differ from the pattern when read with bits `x`
inverted. -/
def wordDiff (im : Image) (b : Byte) (x w : Nat) : Nat :=
  let raw := natLE ((im.data.drop (8 * w)).take 8) + 2 ^ 64 * (im.chk.getD w 0).toNat
  ones 72 (raw ^^^ natLE (List.replicate 9 b) ^^^ x)

/-- What a raw read of a line gives against the pattern (R223): failing words with the number of differing bits, and whether
the outer-code field failed. -/
def patternFails (im : Image) (b : Byte) (seen : ReadBack) (line : Nat) : List (Nat × Nat) × Bool :=
  let flip (w : Nat) : Nat := (seen.words.filterMap fun e => if e.1 == line && e.2.1 == w then some e.2.2 else none).foldl (· ^^^ ·) 0
  let oflip := (seen.outer.filterMap fun e => if e.1 == line then some e.2 else none).foldl (· ^^^ ·) 0
  (((List.range 16).map fun (w : Nat) => (w, wordDiff im b (flip w) w)).filter fun e => e.2 != 0,
   ones 32 (im.outer ^^^ natLE (List.replicate 4 b) ^^^ oflip) != 0)

/-- The access of a line for its copy from the array of `lb`, or for its test. -/
def State.engineLine (s : State) (lb ix age : Nat) (op : AccOp) (d : Dest) : Access :=
  let at_ := s.lineAt lb ix
  { agent := 14, la := (at_.map fun e => e.2).getD (2 ^ 23), lb := lb, ix := ix, phys := none,
    rgn := (at_.map fun e => e.1).getD 0, age := age, esc := false, resv := false, since := none, op := op, dest := d }

/-- The copy read of a line (steps 1 and 2 of Table 10.3, step 4 of Table 10.4): what it finds is recorded, the copy stored with
fresh inner codes; a bad line of a twin region goes to repair, any other is poisoned in its copy (R214, R215, R217). -/
def State.copyFrom (s : State) (src dst : Home) (a : Access) : State :=
  let im := s.image src
  let at_ := s.lineAt a.lb a.ix
  let j := judgeCopy im (at_.map fun e => e.2)
  let s := (s.record 14 src none j).setImage dst (copyImage im j (s.twinLine a))
  if j.data?.isNone ∧ s.twinLine a then s.repairLine a else s

/-- Restores a line from the save buffer: data with fresh inner codes, its stored outer code, valid bit and poison bit
(steps 15 and 16). -/
def State.restoreLine (s : State) (sl pb ix : Nat) : State :=
  let im := s.image ⟨true, arrBase sl (ix % 128), pb, ix⟩
  s.setImage (arrHome pb ix) { im with chk := checkBytes im.data 16 }

/-! ## Counts and the walk -/

/-- Marks in `BT.SL` that a shaving runs at a step, or that none does. -/
def State.showShaving (s : State) (sl : Nat) (step : Option Nat) : State :=
  match step with
  | some k => (s.setFld (oBtSl sl) 63 60 (k - 1)).setBit (oBtSl sl) 59
  | none => s.setFld (oBtSl sl) 63 59 0

/-- Clears the failing-word counts of a slice: a new pass begins. -/
def State.clearFw (s : State) (sl : Nat) : State :=
  foldState (fun s k => s.setReg (oBtFw sl k) 0) (List.range 7) s

/-- The walk moves to the next shaving of the pass (R222). -/
def State.nextShaving (s : State) (sl : Nat) : State :=
  let i := s.field (oBtSl sl) 58 46
  if i = 8191 then ((s.setFld (oBtSl sl) 58 46 0).bump (oBtSl sl) 31 0 1).clearFw sl
  else s.setFld (oBtSl sl) 58 46 (i + 1)

/-- Failing words of a logical bank in this pass. -/
def State.fwOf (s : State) (lb : Nat) : Nat :=
  let q := lb % 64
  s.field (oBtFw (sliceOf lb) (q / 10)) (6 * (q % 10) + 5) (6 * (q % 10))

/-- The failing-word count of a bank exceeds what CC2 retires on (R226). -/
def State.beyondWords (s : State) (lb : Nat) : Bool := s.bit oIntCfg 9 && decide (s.field oIntCfg 7 0 < s.fwOf lb)

/-! ## The end of a shaving -/

/-- Ends a test run of a slice with a reply (R282): `ABORT`, or its results. A retirement starts where one is due and a spare is
free for it. -/
def State.endTest (s : State) (sl : Nat) (aborted : Bool) : State :=
  match (s.slice sl).test with
  | none => s
  | some t =>
    let s := s.modSlice sl fun q => { q with test := none }
    if aborted then s.outcome t.cmd 13 3
    else
      let due := (t.hard || s.beyondWords t.lb) && (s.freeSpare sl).isSome
      s.reply t.cmd 0 0x14 [t.words % 65536 + t.idx * 65536 + b2n t.hard * 2 ^ 32 + b2n due * 2 ^ 33]

/-- Why a shaving is abandoned (R225). -/
inductive Abandon where
  /-- Its group is frozen for a slice reset, a power-state entry, or the start of a migration. -/
  | freeze
  /-- It found a hard fault. -/
  | hard
  /-- The host stopped the test with `BT.CFG.ABORT`. -/
  | stop
  deriving DecidableEq, Repr

/-- A shaving ends: redirection is over, and the engine's access leaves the group. The walk moves on from one that ran to its end
or found a hard fault, and starts an abandoned one again (R263). A test run goes on to its next shaving, or ends: with `ABORT` for
a freeze, with its results otherwise (log 43). -/
def State.endShaving (s : State) (sl : Nat) (ofTest hard : Bool) (why : Option Abandon) : State :=
  let s := ((s.showShaving sl none).dropEngine (.shaving sl)).modSlice sl fun q => { q with shaving := none }
  if !ofTest then (if why = none ∨ why = some .hard then s.nextShaving sl else s)
  else match (s.slice sl).test with
  | none => s
  | some t =>
    let t := { t with idx := if why = none then t.idx + 1 else t.idx, hard := t.hard || hard }
    let s := s.modSlice sl fun q => { q with test := some t }
    if why = some .freeze then s.endTest sl true
    else if why = some .stop ∨ hard ∨ t.idx = 128 then s.endTest sl false
    else s

/-- Lines `a` to `b`, not including `b`, of a shaving. -/
def overLines (f : State → Nat → State) (a b : Nat) (s : State) : State := foldState f ((List.range (b - a)).map (a + ·)) s

/-- Abandons a slice's shaving: what was copied is restored at once (R225, log 43). -/
def State.abandonShaving (s : State) (sl : Nat) (why : Abandon) : State :=
  match (s.slice sl).shaving with
  | none => s
  | some sh =>
    let s := overLines (fun s i => s.restoreLine sl sh.pb (sh.ix0 + i)) sh.lo sh.hi s
    s.endShaving sl sh.ofTest (why == .hard) (some why)

/-- A test run that waits for its next shaving ends where `p` holds of its bank (R282). -/
def State.stopTest (s : State) (sl : Nat) (p : Nat → Bool) : State :=
  match (s.slice sl).test with
  | some t => if p t.lb then s.endTest sl true else s
  | none => s

/-- Acts on the guard reads after the restore: the trim rises, or the bank has a hard fault (R224). -/
def State.calibrate (s : State) (pb lb m : Nat) : State :=
  let o := oTrim (pb / 16)
  let i := 4 * (pb % 16)
  let t := s.field o (i + 3) i
  let u := t + (2 - m)
  let s := if u > 15 then (s.setFld o (i + 3) i 15).setBit oIntErr 6 else s.setFld o (i + 3) i u
  if m = 0 ∧ t = 15 then s.hardFault lb else s

/-- The last step is over: calibration, then the end of the shaving (R224). -/
def State.finishShaving (s : State) (sl : Nat) (sh : Shaving) : State :=
  let m := b2n (!sh.bad1) + b2n (!sh.bad2)
  let hard := sh.cal && m == 0 && s.field (oTrim (sh.pb / 16)) (4 * (sh.pb % 16) + 3) (4 * (sh.pb % 16)) == 15
  let s := if sh.cal then s.calibrate sh.pb sh.lb m else s
  s.endShaving sl sh.ofTest hard none

/-! ## The accesses of a shaving -/

/-- Line of the shaving that the next access of its step reads or writes. -/
def Shaving.line (sh : Shaving) : Nat := 64 * ((sh.step - 1) % 2) + (64 - sh.left)

/-- The step writes the pattern, its complement, or the restored lines. -/
def Shaving.writes (sh : Shaving) : Bool := [3, 4, 7, 8, 15, 16].contains sh.step

/-- The step after this one: steps 11 to 14 are skipped without calibration (R219). -/
def Shaving.nextStep (sh : Shaving) : Nat := if sh.step = 10 ∧ !sh.cal then 15 else sh.step + 1

/-- A whole-line write, as the group sees it. -/
def wholeWrite : AccOp := .write ((List.range 128).map fun (i : Nat) => (i, (0 : Byte))) false false

/-- The access that a shaving offers its group. -/
def State.shavingAccess (s : State) (sl : Nat) (sh : Shaving) (age : Nat) : Access :=
  s.engineLine sh.lb (sh.ix0 + sh.line) age (if sh.writes then wholeWrite else .read) (.shaving sl)

/-- Logs the failing words of a line and counts them in the bank's count for the pass and in the test run (R223, R282). -/
def State.logFails (s : State) (sl : Nat) (sh : Shaving) (ix : Nat) (fails : List (Nat × Nat)) : State :=
  let q := sh.lb % 64
  let s := foldState (fun s (e : Nat × Nat) =>
    ((s.finding 4 14 sh.pb ix e.2 e.1 none).bump (oBtFw sl (q / 10)) (6 * (q % 10) + 5) (6 * (q % 10)) 1).setBit oIntErr 5) fails s
  if sh.ofTest then s.modSlice sl fun q => { q with test := q.test.map fun t => { t with words := t.words + fails.length } }
  else s

/-- One access of the step is done: the next line, or the end of the step, or the end of the shaving. -/
def State.nextLine (s : State) (sl : Nat) (sh : Shaving) : State :=
  if sh.left > 1 then s.modSlice sl fun q => { q with shaving := some { sh with left := sh.left - 1 } }
  else if sh.step = 16 then s.finishShaving sl sh
  else
    let n := sh.nextStep
    (s.modSlice sl fun q => { q with shaving := some { sh with step := n, left := 0 } }).showShaving sl (some n)

/-- A granted access of a shaving (Table 10.3). -/
def State.shavingLine (s : State) (sl : Nat) (sh : Shaving) (a : Access) : State :=
  let i := sh.line
  let h := arrHome sh.pb (sh.ix0 + i)
  if sh.step ≤ 2 then
    (s.copyFrom h ⟨true, arrBase sl ((sh.ix0 + i) % 128), sh.pb, sh.ix0 + i⟩ a).nextLine sl { sh with hi := i + 1 }
  else if sh.step = 3 ∨ sh.step = 4 ∨ sh.step = 7 ∨ sh.step = 8 then
    (s.putPattern h (patternByte i (sh.step ≥ 7))).nextLine sl sh
  else if sh.step ≤ 10 then
    let (fails, outer) := patternFails (s.image h) (patternByte i (sh.step ≥ 9)) sh.seen i
    let s := s.logFails sl sh (sh.ix0 + i) fails
    if outer ∨ fails.any fun e => decide (2 ≤ e.2) then (s.hardFault sh.lb).abandonShaving sl .hard else s.nextLine sl sh
  else if sh.step ≤ 14 then
    let (fails, outer) := patternFails (s.image h) (patternByte i true) sh.seen i
    let bad := outer || !fails.isEmpty
    s.nextLine sl { sh with bad1 := sh.bad1 || (bad && decide (sh.step ≤ 12)), bad2 := sh.bad2 || (bad && decide (13 ≤ sh.step)) }
  else (s.restoreLine sl sh.pb (sh.ix0 + i)).nextLine sl { sh with lo := i + 1 }

/-- The access check of a shaving's access tripped (R223): a copy read is treated as uncorrectable, the array has a hard fault,
and the shaving is abandoned. -/
def State.shavingTrip (s : State) (sl : Nat) (sh : Shaving) (a : Access) : State :=
  let h := arrHome sh.pb a.ix
  let s := if 2 < sh.step then s else if s.twinLine a then s.repairLine a else s.setMeta h (s.image h).valid true
  (s.accessFault 14 sh.pb a.ix none).abandonShaving sl .hard

/-- Starts a shaving of a logical bank at a first line. -/
def State.startShaving (s : State) (sl lb ix0 : Nat) (cal ofTest : Bool) : State :=
  let sh : Shaving := { lb := lb, pb := s.physOf lb, ix0 := ix0, step := 1, left := 0, seen := ⟨[], []⟩, lo := 0, hi := 0,
                        bad1 := false, bad2 := false, cal := cal, ofTest := ofTest }
  (s.modSlice sl fun q => { q with shaving := some sh, lastStart := some s.turn }).showShaving sl (some 1)

/-! ## When the engine starts (R222, R250) -/

/-- A slice whose engine may start a shaving now: CC2 schedules the test (R23), and class BT is not gated at level 8. -/
def State.engineFree (s : State) (sl : Nat) : Bool :=
  decide (sl < s.build.slices) && s.awake && s.coreRuns 2 && (s.slice sl).powered && !(s.slice sl).hold && (s.slice sl).shaving.isNone
  && decide (s.field oGate 23 20 < 8) && decide (s.field oPwrStat 60 58 < 2)

/-- The walk's period has passed (R222), stretched by the gating of class BT (Table 11.4). -/
def State.periodOver (s : State) (sl : Nat) : Bool :=
  let p := s.field oBtCfg 15 0
  p != 0 && !(s.slice sl).stopped && match (s.slice sl).lastStart with
    | none => true
    | some t => decide (t + max 16 p * (1 + s.field oGate 23 20) ≤ s.turn)

/-- Starts or skips the walk's next shaving (R222). -/
def State.walk (s : State) (sl : Nat) : State :=
  let i := s.field (oBtSl sl) 58 46
  let lb := 64 * sl + i % 64
  let inGroup := match (s.slice sl).migr with
    | some m => groupOf m.lb == groupOf lb
    | none => false
  if s.dead lb || inGroup || !s.btSlot (groupOf lb) then (s.bump (oBtSl sl) 45 32 1).nextShaving sl
  else s.startShaving sl lb (128 * (i / 64)) (s.bit oBtCfg 16) false

/-! ## Migration copies (R227, R228) -/

/-- The access that a running migration offers its group. -/
def State.copyAccess (s : State) (sl : Nat) (m : Migr) (age : Nat) : Access := s.engineLine m.lb m.next age .read (.copy sl)

/-- A migration copy: the line is read from the old array and written to the spare; a bad line is written poisoned, or repaired
in a twin region, a blank one blank (R228, R229). -/
def State.copyLine (s : State) (sl : Nat) (m : Migr) (a : Access) : State :=
  let h := s.home m.lb m.next
  let sp := arrHome (66 * sl + m.spare) m.next
  let im := s.image h
  let s := if im.valid then s.copyFrom h sp a else s.setMeta sp false im.poison
  let s := s.setFld (oSpare sl) 46 32 (m.next + 1)
  s.modSlice sl fun q => { q with migr := q.migr.map fun m => { m with next := m.next + 1 } }

/-- The access that the slice's engine offers a group in a BT slot, at most one (R111). -/
def State.engineOffer (s : State) (g : Nat) : Option Access :=
  let sl := g / 4
  let q := s.slice sl
  let age := (s.group g).total
  match q.migr with
  | some m =>
    if groupOf m.lb = g ∧ !m.suspended ∧ m.next < 16384 ∧ s.migrating m.lb ∧ s.field oGate 23 20 < 8 then
      some (s.copyAccess sl m age)
    else q.shaving.bind fun sh => if groupOf sh.lb = g ∧ 0 < sh.left then some (s.shavingAccess sl sh age) else none
  | none => q.shaving.bind fun sh => if groupOf sh.lb = g ∧ 0 < sh.left then some (s.shavingAccess sl sh age) else none

/-- A granted access of the engine. -/
def State.engineAccess (s : State) (a : Access) : State :=
  match a.dest with
  | .copy sl => (match (s.slice sl).migr with
    | some m => s.copyLine sl m a
    | none => s)
  | .shaving sl => (match (s.slice sl).shaving with
    | some sh => s.shavingLine sl sh a
    | none => s)
  | _ => s

/-! ## Unused spares (R222, R223) -/

/-- What the pattern test of an unused spare found: failing words are logged, and a hard fault or an access fault makes the spare
FAILED. -/
def State.testSpare (s : State) (t : SpareTest) : State :=
  let pb := 66 * t.sl + t.pos
  if t.sl ≥ s.build.slices ∨ ¬(t.pos = 64 ∨ t.pos = 65) ∨ s.spareState t.sl t.pos ≠ 0 then s
  else
    let s := foldState (fun s (e : Nat × Nat × Nat) => (s.finding 4 14 pb e.1 (ones 72 e.2.2) e.2.1 none).setBit oIntErr 5) t.words s
    if t.access then s.accessFault 14 pb 0 none
    else if !t.outer.isEmpty ∨ t.words.any fun e => decide (2 ≤ ones 72 e.2.2) then s.arrayFault pb
    else s

/-- The pattern test of every unused spare of a slice, from the tests that name it. -/
def State.testSpares (s : State) (tests : List SpareTest) (sl : Nat) : State :=
  foldState (fun s pos => match tests.find? fun t => t.sl == sl && t.pos == pos with
    | some t => s.testSpare t
    | none => s) [64, 65] s

/-- The pattern tests of a slice's unused spares at the power-up that ends PS2: what they find is free (log 15). -/
def State.testSparesFree (s : State) (sl : Nat) : State :=
  foldState (fun s pos =>
    s.takeFree.testSpare { sl := sl, pos := pos, words := Config.spareWords s.free (66 * sl + pos),
                           outer := Config.spareOuter s.free (66 * sl + pos), access := false }) [64, 65] s

end Sys2Proof.Machine
end

