-- ==== Sys2Proof/Machine/Switch.lean ====
section
/-! DEFINITION. The group switch (chapter 5): grant cycles, candidates, the arbitration of R101, folding, parking, counters; the
accumulate gate (R174). -/
namespace Sys2Proof.Machine

/-! ## Grant cycles and owners -/

/-- Rank of an agent (R99). -/
def State.rankOf (s : State) (a : Nat) : Nat := wfld s.rankNow (4 * a + 3) (4 * a)

/-- Frequency of a point in units of 50 MHz (R94). -/
def freqOf (op : Nat) : Nat := [20, 24, 28, 32, 35, 38, 40, 42].getD op 20

/-- Running point of domain d: 0 is F, 1 + s slice s. -/
def State.opOf (s : State) (d : Nat) : Nat := s.field oOps (3 * d + 2) (3 * d)

/-- What sets a slice's grant cycles: the frequencies of F and of the slice, the droop stretch, the gating level of class
UNLOCKED where the slice is not locked (R94, R244, Table 11.4). -/
structure Clocking where
  nf : Nat
  ns : Nat
  stretch : Bool
  gate : Nat
  deriving DecidableEq, Repr

/-- The clocking of a slice now. -/
def State.clocking (s : State) (sl : Nat) : Clocking :=
  { nf := freqOf (s.opOf 0), ns := freqOf (s.opOf (1 + sl)), stretch := (s.dom (1 + sl)).droop,
    gate := if s.bit oLock (1 + sl) then 0 else s.field oGate 15 12 }

/-- Whether the cycle that begins is a grant cycle of the slice: the accumulator of R94 advances but in every fourth stretched
cycle (R244), and of every 8 grant cycles it gives the last `gate` are not (Table 11.4). -/
def Slice.startCycle (c : Clocking) (q : Slice) : Slice :=
  let n := if c.stretch then (q.stretchCnt + 1) % 4 else q.stretchCnt
  if c.stretch ∧ n = 0 then { q with stretchCnt := n, gc := false }
  else
    let a := q.acc + c.ns
    if a < c.nf then { q with stretchCnt := n, acc := a, gc := false }
    else { q with stretchCnt := n, acc := a - c.nf, gateCnt := (q.gateCnt + 1) % 8, gc := decide (q.gateCnt < 8 - c.gate) }

/-- Cycles from now to the slice's next grant cycle; `n` bounds the search. -/
def Slice.toGrant (c : Clocking) (q : Slice) : Nat → Nat
  | 0 => 1
  | n + 1 =>
    let q := q.startCycle c
    if q.gc then 1 else 1 + q.toGrant c n

/-- Cycles from now to the next grant cycle of a slice. -/
def State.nextGrant (s : State) (sl : Nat) : Nat := (s.slice sl).toGrant (s.clocking sl) 64

/-- A link's cycle begins: it may drive a packet again (R49). -/
def Link.startCycle (l : Link) : Link := { l with sentNow := false }

/-- A cycle begins in every present slice's groups, where a freeze written in the cycle before takes effect (R110), and at the
links. -/
def State.startCycle (s : State) : State :=
  let s := foldState (fun s sl => s.modSlice sl fun q => q.startCycle (s.clocking sl)) (List.range s.build.slices) s
  let s := foldState (fun s g => s.modGroup g fun q => { q with granted := false, frz := s.bit oFreeze g || s.bit oFrzFw g })
    (List.range s.nGroups) s
  (s.setLink false (s.link false).startCycle).setLink true (s.link true).startCycle

/-- Owner of the slot of a group's next grant cycle, in the copy in force then (R98, R101). -/
def State.nextOwner (s : State) (g : Nat) : Nat :=
  let q := s.group g
  if s.cyc + s.nextGrant (g / 4) ≤ 4095 then s.slotOwner g ((q.grantCount + 1) % 64) false
  else s.slotOwner g 0 (s.bit oSwap g && q.swapArmed)

/-- The first listed of the oldest accesses. Of accesses of one agent that is its oldest; between escalated accesses of equal age of
different agents the manual gives no rule, and the one that entered the list first is taken (DESIGN CHOICE, log 59). -/
def oldest : List Access → Option Access
  | [] => none
  | a :: l => match oldest l with
    | none => some a
    | some b => if b.age < a.age then some b else some a

/-- Is an access escalated: of a fenced port, or of FW parked for 4,096 grant cycles (R105). -/
def escalated (total : Nat) (a : Access) : Bool := a.esc || (a.agent == 13 && a.since.any fun t => decide (t + 4096 ≤ total))

/-- A read of w's line that may fold into w: its own agent has no older write or accumulate of the line among the
candidates or in w (R101). -/
def foldable (cand : List Access) (w f : Access) : Bool :=
  f != w && f.op == .read && f.lb == w.lb && f.ix == w.ix && f.phys == w.phys &&
  !(cand.takeWhile fun c => c != f).any fun c => c.agent == f.agent && c.op != .read && c.lb == f.lb && c.ix == f.ix

/-- The agent the arbitration chooses among the live accesses (R101). -/
def State.chooseAgent (s : State) (o total : Nat) (live : List Access) : Nat :=
  if o ≠ 15 ∧ live.any fun a => a.agent == o then o
  else match oldest (live.filter (escalated total)) with
    | some a => a.agent
    | none => (live.foldl (fun (b : Option Nat) a => match b with
        | none => some a.agent
        | some x => if s.rankOf a.agent < s.rankOf x then some a.agent else some x) none).getD 15

/-- The access granted at a bank, with whether its grant takes two accesses; `n` is the next slot's owner. `fuel` bounds the
agents excluded. -/
def State.arbitrate (s : State) (o n total : Nat) (cand : List Access) : Nat → List Nat → Option (Access × Bool)
  | 0, _ => none
  | fuel + 1, excl =>
    let live := cand.filter fun a => !excl.contains a.agent
    if live = [] then none
    else
      let ag := s.chooseAgent o total live
      match oldest (live.filter fun a => a.agent == ag) with
      | none => none
      | some w =>
        let two := w.op.merges || (w.op != .read && cand.any fun f => foldable cand w f)
        if two ∧ n ≠ 15 ∧ n ≠ ag ∧ cand.any (fun c => c.agent == n) then s.arbitrate o n total cand fuel (ag :: excl)
        else some (w, two)

/-- Counts a grant or fold of an access of a port that had lost (R112). -/
def State.countWait (s : State) (total : Nat) (a : Access) : State :=
  if a.agent > 12 ∨ a.age = total then s
  else (s.bump (oWait a.agent) 47 0 (total - a.age)).raise (oMaxw a.agent) 31 0 (total - a.age)

/-- A write of a twin region waits at the group while 1,024 mirrors await their `TACK` (R205). -/
def State.mirrorRoom (s : State) (a : Access) : Bool :=
  a.op == .read || !s.rgnTwin a.rgn || !s.mirrors || a.agent == 11 || decide (s.mirrorsOut < 1024)

/-- An access waits for what an earlier one of its twin-region line still owes: a merge that has its copy to come (R208), whose
two halves nothing of this instance may part (R120), or, in a DEAD bank, a write on its way to the only copy (R43). The peer's own
accesses wait for neither. -/
def State.lineWaits (s : State) (a : Access) : Bool :=
  a.agent != 11 && a.phys.isNone &&
  s.tp.await.any fun w => w.la == a.la && (w.redo.isSome || (w.isMirror && s.dead a.lb && !a.op.whole))

/-- An access that may not be granted now for its line's sake. The engine's raw accesses owe the twin nothing. -/
def State.barred (s : State) (a : Access) : Bool := a.agent != 14 && (!s.mirrorRoom a || s.lineWaits a)

/-- Two accesses are to one line of one array. -/
def Access.sameLine (a c : Access) : Bool := a.lb == c.lb && a.ix == c.ix && a.phys == c.phys

/-- The candidates that are not barred, and do not follow a barred access of their own agent to their line (R103, R114). -/
def State.unbarred (s : State) (l : List Access) : List Access :=
  l.filter fun a => !s.barred a && !(l.takeWhile fun c => c != a).any fun c => c.agent == a.agent && c.sameLine a && s.barred c

/-- An access whose check tripped is treated as an uncorrectable error (R215, R223): repaired in a twin region, else answered
`ECC`, its line poisoned. -/
def State.asUe (s : State) (a : Access) : State :=
  if s.twinLine a then s.repairLine a
  else
    let h := s.home a.lb a.ix
    let s := if a.phys.isSome then s else s.setMeta h (s.image h).valid true
    if a.op = .read then s.deliver a.dest a.la 3 false [] else s.notStored a

/-- The spare that a grant of an access writes: of a running migration of its bank (R228). -/
def State.spareWritten (s : State) (a : Access) : Option Nat :=
  match (s.slice (sliceOf a.lb)).migr with
  | some m =>
    if m.lb = a.lb ∧ a.phys.isNone ∧ (a.op ≠ .read ∨ a.dest = .copy (sliceOf a.lb)) then some m.spare else none
  | none => none

/-- The physical bank whose check tripped in a grant: `trips` names the bank's own array by its number in the group, 0 to 15,
and a spare that the grant writes by 16 (position 64) or 17 (65). -/
def State.trippedBank (s : State) (trips : List Nat) (b : Nat) (a : Access) : Option Nat :=
  if trips.contains b then some (a.phys.getD (s.physOf a.lb))
  else match s.spareWritten a with
    | some pos => if trips.contains (pos - 48) then some (66 * sliceOf a.lb + pos) else none
    | none => none

/-- A grant whose access check tripped at physical bank `pb` (R223). -/
def State.tripped (s : State) (a : Access) (folded : List Access) (pb : Nat) : State :=
  match a.dest with
  | .copy _ => foldState (fun s f => s.perform f []) folded (s.accessFault 14 pb a.ix none)
  | .shaving sl =>
    let s := foldState (fun s f => s.perform f []) folded s
    (match (s.slice sl).shaving with
    | some sh => s.shavingTrip sl sh a
    | none => s)
  | _ =>
    let s := foldState State.asUe (a :: folded) s
    s.accessFault a.agent pb a.ix (if laKnown a.agent then some a.la else none)

/-- A grant: the engine's accesses do their step, and the live reads folded into one are served as reads of the line, wherever it
is (R220); any other is performed with its reads (R103). -/
def State.granted (s : State) (a : Access) (folded : List Access) : State :=
  if a.agent = 14 then foldState (fun s f => s.perform f []) folded (s.engineAccess a) else s.perform a folded

/-- One bank of a group in a grant cycle (R101). The lists are the candidates of the whole group still to be served. -/
def State.bankStep (g o n : Nat) (trips : List Nat) (st : State × List Access) (b : Nat) : State × List Access :=
  let s := st.1
  let q := s.group g
  if q.busy.contains b then (s.modGroup g fun q => { q with busy := q.busy.filter (· != b) }, st.2)
  else
    let cand := s.unbarred (st.2.filter fun a => bankOf a.lb == b)
    match s.arbitrate o n q.total cand 16 [] with
    | none => st
    | some (w, two) =>
      let folded := cand.filter fun f => foldable cand w f && f.dest != w.dest
      let s := foldState (fun s a => s.countWait q.total a) (w :: folded) s
      let s := foldState (fun s f => if f.agent ≤ 12 then s.bump (oComb f.agent) 47 0 1 else s) folded s
      let s := s.modGroup g fun q => { q with grants := q.grants + 1, busy := if two then b :: q.busy else q.busy }
      let s := if w.op.isAdd then s.modGroup g fun q =>
          { q with gateWait := match w.op with | .add32 _ => 2 | _ => 1 } else s
      let s := match s.trippedBank trips b w with
        | some pb => s.tripped w folded pb
        | none => s.granted w folded
      (s, st.2.filter fun a => a != w && !folded.contains a)

/-! ## Arrival and parking (R106, R107, R109, R174, R253) -/

/-- Full rate of a port in line accesses a cycle (R253). -/
def fullRate (p : Nat) : Nat := (widthR p + widthW p) / 128

/-- The ramp step r of a port in 64ths (Table 11.5). -/
def State.rampStep (s : State) (p : Nat) : Nat := [16, 8, 4, 2, 1].getD (s.field (oRamp p) 2 0) 1

/-- The port's allowance leaves room in this frame; CP, FW and BT have none. With `EN` 0 it is 64 (R253). -/
def State.rampRoom (s : State) (p : Nat) : Bool :=
  p > 11 || decide ((s.port p).frameUse < s.field (oRampStat p) 54 48 * fullRate p)

/-- A group is frozen (R109), from the cycle after the write that freezes it (R110). -/
def State.frozen (s : State) (g : Nat) : Bool := (s.bit oFreeze g || s.bit oFrzFw g) && (s.group g).frz

/-- An agent may issue in this cycle under the gating of class LINK (Table 11.4). -/
def State.linkTurn (s : State) (a : Nat) : Bool := !(a == 10 || a == 11) || s.linkCycle

/-- Accesses waiting at the chucks enter the group in order, each chuck's until one must wait: frozen, held at the input,
an accumulate line before its gate, the ramp allowance, LINK gating. -/
def State.arrive (s : State) (g : Nat) : State :=
  let q := s.group g
  let step (st : State × List Nat × List Access) (a : Access) : State × List Nat × List Access :=
    let (s, stop, rest) := st
    let q := s.group g
    if stop.contains a.agent ∨ (s.frozen g ∧ a.agent ≤ 12) ∨ a.op.isAdd ∨ !s.rampRoom a.agent ∨ !s.linkTurn a.agent
        ∨ (q.arriving.any fun x => x.agent == a.agent && x.age < q.total) then
      (s, a.agent :: stop, rest ++ [a])
    else
      let s := s.modGroup g fun q => { q with arriving := q.arriving ++ [{ a with age := q.total }] }
      let s := if a.agent ≤ 12 then s.modPort a.agent fun p =>
          { p with frameUse := p.frameUse + 1, turnUse := p.turnUse + 1 } else s
      (s, stop, rest)
  let r := q.waitq.foldl step (s, [], [])
  r.1.modGroup g fun q => { q with waitq := r.2.2 }

/-- Pending-queue entries an agent may hold in one group (R106, Table 5.9). -/
def State.qlim (s : State) (a : Nat) : Nat :=
  if a = 13 then 2 else if a = 14 then 1 else max 1 (min 49 (s.field (oArb a) 5 0))

/-- Offers a candidate an entry: its agent's reserved one, else a shared one within its limit, else it stays at the input. -/
def State.park (s : State) (g : Nat) (a : Access) : State :=
  let q := s.group g
  let put (resv : Bool) : State :=
    s.modGroup g fun q => { q with arriving := q.arriving.filter (· != a), parked := q.parked ++ [{ a with resv := resv, since := some q.total }] }
  if !q.parked.any fun x => x.agent == a.agent && x.resv then put true
  else if (q.parked.filter fun x => !x.resv).length < 49 ∧ (q.parked.filter fun x => x.agent == a.agent).length < s.qlim a.agent
    then put false
  else s

/-- Candidates in the order entries are offered: oldest first, then by rank, then as issued. -/
def State.offerOrder (s : State) (l : List Access) : List Access :=
  l.foldl (fun acc a =>
    let before (x : Access) : Bool := decide (x.age < a.age) || (x.age == a.age && decide (s.rankOf x.agent ≤ s.rankOf a.agent))
    acc.takeWhile before ++ [a] ++ acc.dropWhile before) []

/-- Losses of the cycle's arrivals (R112), and the parking of R106; while the group is frozen accesses of ports 0 to 12 stay at
its input (R109). -/
def State.parkAll (s : State) (g : Nat) : State :=
  let q := s.group g
  let s := foldState (fun s a => if a.age = q.total ∧ a.agent ≤ 12 then s.bump (oLost a.agent) 47 0 1 else s) q.arriving s
  let s := foldState (fun s a => s.park g a) (s.offerOrder (q.arriving.filter fun a => !(s.frozen g && decide (a.agent ≤ 12)))) s
  s.raise (oGrp g) 14 8 (s.group g).parked.length

/-- In a BT slot the slice's engine presents an access to the group where none of its own waits there (R111). -/
def State.offerEngine (s : State) (g o : Nat) : State :=
  let q := s.group g
  if o ≠ 14 ∨ (q.parked ++ q.arriving).any fun a => a.agent == 14 then s
  else match s.engineOffer g with
    | some a => s.modGroup g fun q => { q with arriving := q.arriving ++ [a] }
    | none => s

/-- A grant cycle of a group (R94, R95, R101): arrivals, the 16 banks, parking. BT's accesses are candidates in BT's slots alone
(R111). -/
def State.grantCycle (s : State) (g : Nat) (trips : List Nat) : State :=
  let s := s.arrive g
  let o := s.slotOwner g ((s.group g).grantCount % 64) false
  let s := s.offerEngine g o
  let q := s.group g
  let n := s.nextOwner g
  let out (a : Access) : Bool := s.frozen g && decide (a.agent ≤ 12)
  let bars (a : Access) : Bool := o != 14 && a.agent == 14
  let r := (List.range 16).foldl (State.bankStep g o n trips)
    (s, (q.parked ++ q.arriving.filter fun a => !out a).filter fun a => !bars a)
  let s := r.1.modGroup g fun q =>
    { q with parked := q.parked.filter fun a => bars a || r.2.contains a,
             arriving := q.arriving.filter fun a => out a || bars a || r.2.contains a }
  let s := s.parkAll g
  s.modGroup g fun q =>
    { q with grantCount := q.grantCount + 1, total := q.total + 1, granted := true, gateWait := q.gateWait - 1 }

/-! ## The accumulate gate (R174) -/

/-- The gate may take in this grant cycle: nothing admitted still waits, the distance to the last accumulate is kept, class
ARITH is not gated in it (Table 11.4), the group is not frozen. -/
def State.gateOpen (s : State) (g : Nat) : Bool :=
  let q := s.group g
  !(q.parked ++ q.arriving).any (fun a => a.op.isAdd) && q.gateWait == 0
  && decide (q.total % 8 < 8 - s.field oGate 11 8) && !s.frozen g

/-- Accumulate lines at the head of their chuck's queue for the group, with nothing of theirs held at the input. -/
def gateHeads (q : Group) : List Access :=
  q.waitq.filter fun a => a.op.isAdd && (q.waitq.find? fun x => x.agent == a.agent) == some a
    && !q.arriving.any fun x => x.agent == a.agent && x.age < q.total

/-- Admits one line: of the slot's owner, else of the strongest rank. -/
def State.gateAdmit (s : State) (g : Nat) : State :=
  let q := s.group g
  if !s.gateOpen g then s
  else
    let heads := (gateHeads q).filter fun a => s.rampRoom a.agent && s.linkTurn a.agent
    let o := s.slotOwner g (q.grantCount % 64) false
    let ag := s.chooseAgent o 0 heads
    match heads.find? fun a => a.agent == ag with
    | none => s
    | some a =>
      let s := s.modGroup g fun q =>
        { q with waitq := q.waitq.eraseIdx (q.waitq.idxOf a), arriving := q.arriving ++ [{ a with age := q.total }] }
      if a.agent ≤ 12 then s.modPort a.agent fun p => { p with frameUse := p.frameUse + 1, turnUse := p.turnUse + 1 } else s

end Sys2Proof.Machine
end

