-- ==== Sys2Proof/Machine/TwinOps.lean ====
section
/-! DEFINITION. The pair (§9.7 to §9.11): the loss of the twin, the end of mirrors and repairs, control messages, the
resync's reads. -/
namespace Sys2Proof.Machine

/-! ## Identity (Tables 0.4 to 0.6) -/

def State.idVersion (s : State) : Nat := 0x4A5D7A0303010000 + (s.build.step % 256) * 256
def State.idConfig (s : State) : Nat :=
  (128 * s.build.slices) * 2 ^ 32 + (s.build.ports ||| 0x1000) % 8192 * 2 ^ 16 + s.build.slices % 16

/-! ## The end of a mirror, the loss of the twin -/

/-- The line is one of a stream's. -/
def Dest.ofStream : Dest → Bool
  | .stream _ _ _ _ _ _ => true
  | _ => false

/-- Code of a twin-region write whose mirror failed, while DOWN (R209). -/
def State.soloCode (s : State) : Nat := if s.bit oTwinCfg 0 then 0 else 12

/-- An awaited answer will not come: a mirror of a line committed here marks its unit dirty, one of a line that the twin alone
stores is lost, a repair has no copy (R208, R209). A copy for a stream that a notice has squashed since is of no use any more
(R131). -/
def State.loseAwait (s : State) (w : TAwait) : State :=
  if w.fetch then
    if kBit4 w.h then s
    else match w.redo with
      | some a => s.repairFailed a
      | none =>
        let s := (s.setBit oTwinErr 1).bump oRepair 63 32 1
        if w.noticed ∧ w.dest.ofStream then s else s.deliver w.dest w.la 3 false []
  else match w.dest with
    | .resync => s
    | _ => if s.dead w.lb then s.deliver w.dest w.la 3 false [] else (s.markDirty w.la).deliver w.dest w.la s.soloCode false []

/-- The merge that waited for a repaired line (R177, R208): into the copy, committed here, or sent to the twin alone for a DEAD
bank. -/
def State.redoMerge (s : State) (a : Access) (copy : List Byte) : State :=
  let r := a.op.apply copy
  if s.dead a.lb then
    if a.op.isAdd ∨ !s.mirrors then s.notStored a
    else (s.awaitMirror a.dest).sendMirror a.rgn a.la a.lb a.ix r.1 a.dest r.2
  else (s.commitLine a.lb a.ix a.la r.1).committed a r.1 r.2.1 r.2.2

/-- A merge whose copy is here is performed: into the line as it stands where a write of it has been committed since the failed
read, else into the copy. -/
def State.finishRedo (s : State) (w : TAwait) (a : Access) (copy : List Byte) : State :=
  let s := ((s.dropAwait w).sendNextFetch).noteRepair w.dest
  if w.noticed ∧ !s.dead a.lb then s.perform a [] else s.redoMerge a copy

/-- A merge waits for room for its mirror (R205). -/
def State.redoWaits (s : State) : Bool := s.mirrors && !decide (s.mirrorsOut < 1024)

/-- The oldest merge that has its copy and waited for room. -/
def State.finishCopy (s : State) : State :=
  if s.redoWaits then s
  else match s.tp.await.find? fun w => w.copy.isSome with
    | none => s
    | some w => match w.redo, w.copy with
      | some a, some d => s.finishRedo w a d
      | _, _ => s.dropAwait w

def msgBind : Nat := 1
def msgRegion : Nat := 2
def msgDelete : Nat := 3
def msgClear : Nat := 4
def msgDirty : Nat := 5
def msgUnbind : Nat := 6
def msgDown : Nat := 7

/-- `STATE` becomes DOWN (R209): outstanding mirrors and repairs end, merges that have their copy are performed, a resync and a
region command fail; a definition or deletion that fails leaves its region unlocked. -/
def State.goDown (s : State) : State :=
  if s.twin = 0 ∨ s.twin = twinDown then s
  else
    let ws := s.tp.await
    let l := s.tp.link
    let ours (e : Pkt × List Byte) : Bool := kType e.1 == 8 || kType e.1 == 10
    let rs := s.tp.resync
    let rc := s.tp.regionCmd
    let s := (s.setFld oTwinStat 63 62 twinDown).setBit oTwinErr 0
    let s := { s with tp := { s.tp with await := [], resync := none, regionCmd := none, peerDone := false,
                                        link := { l with txq := l.txq.filter fun e => !ours e } } }
    let s := foldState (fun s w => match w.redo, w.copy with
      | some a, some d => s.finishRedo w a d
      | _, _ => s.loseAwait w) ws s
    let s := match rs with
      | some q => (match q.cmd with
        | some n => s.outcome n 12 1
        | none => s)
      | none => s
    match rc with
    | some (n, ix, m) => (if m = msgClear then s else s.setFld (oRgn ix 0) 62 62 0).outcome n 12 4
    | none => s

/-! ## Control messages (Table 9.10) -/

/-- Sends a control message to an instance; `la` carries a chunk number (log 27). -/
def State.sendControl (s : State) (peer la : Nat) (data : List Byte) : State :=
  let t := s.newTtag TAwait.isControl
  let h := mkPkt [(0, 10), (4, 1), (8, s.iid), (23, peer), (46, la), (69, t)]
  s.await { ttag := t, fetch := true, h := h, data := data, la := la, lb := 0, ix := 0, dest := .resync, sent := true,
            since := s.turn, retryAt := none, noticed := false, redo := none, copy := none, fx := (false, false) }

/-- Answers a control message, and keeps the answer for a loss of its packet (R207). -/
def State.answerControl (s : State) (h : Pkt) (code : Nat) (data : List Byte) : State :=
  let k := mkPkt [(0, 11), (4, 1), (8, s.iid), (23, kSiid h), (38, kRgn h), (46, kLa h), (69, kTtag h), (79, code)]
  { s with tp := { s.tp with ctlSent := tset s.tp.ctlSent (kTtag h) (k, data) } }.send true k data

/-- Bind request state in a BIND message (log 27): bit 0 asks the receiver to bind, bit 1 reports a reset, bit 2 reports the
end of a resync, bit 3 says that the sender is already bound to the receiver. -/
def State.bindPayload (s : State) (state : Nat) : List Byte :=
  bytesLE 8 msgBind ++ bytesLE 8 s.idVersion ++ bytesLE 8 s.idConfig ++ bytesLE 8 s.iid ++ bytesLE 1 state

/-- The state of a BIND answer: bound to the peer, or asking to bind to it, or neither. -/
def State.bindState (s : State) (peer : Nat) : Nat :=
  if s.twin ≠ 0 ∧ s.peer = peer then 9
  else match s.tp.binding with
    | some (_, p, _) => b2n (p == peer)
    | none => 0

/-- A region message: index, then the four region registers. -/
def regionPayload (n : Nat) (span attr aux state : Nat) : List Byte :=
  bytesLE 8 (msgRegion + 256 * n) ++ bytesLE 8 span ++ bytesLE 8 attr ++ bytesLE 8 aux ++ bytesLE 8 state

/-- Word `i` of a payload. -/
def payloadWord (data : List Byte) (i : Nat) : Nat := natLE ((data.drop (8 * i)).take 8)

/-! ## The dirty map and the resync (R209, R210) -/

/-- 64 KiB units of the instance. -/
def State.units (s : State) : Nat := 2048 * s.build.slices

/-- Units marked dirty (`TWIN.STAT.DIRTY`). -/
def State.dirtyCount (s : State) : Nat := (s.tp.dirty.filter fun e => e.2).length

/-- 1,024 bits of the dirty map. -/
def State.dirtyChunk (s : State) (c : Nat) : List Byte :=
  (List.range 128).map fun (i : Nat) =>
    BitVec.ofNat 8 ((List.range 8).foldl (fun a (b : Nat) => a + b2n (tget false s.tp.dirty (1024 * c + 8 * i + b)) * 2 ^ b) 0)

/-- Marks the units of a chunk that the peer sends. -/
def State.mergeChunk (s : State) (c : Nat) (data : List Byte) : State :=
  let us := (List.range 1024).filter fun (i : Nat) => bitAt (data.getD (i / 8) 0).toNat (i % 8)
  { s with tp := { s.tp with dirty := us.foldl (fun m u => tset m (1024 * c + u) true) s.tp.dirty } }

/-- One resync read of the source goes out: the next line of the first dirty unit (Table 9.11 step 3). A line outside any
region holds nothing to copy. -/
def State.resyncRead (s : State) : State :=
  match s.tp.resync with
  | none => s
  | some q =>
    match q.chunks, q.units with
    | [], u :: us =>
      let la := 512 * u + q.line
      let q' := if q.line + 1 = 512 then { q with units := us, line := 0 } else { q with line := q.line + 1 }
      match s.regionAt (la * 16) with
      | none => { s with tp := { s.tp with resync := some q' } }
      | some n =>
        if s.rgnTwin n ∧ !q.failed then
          let pl := s.place n la
          let l : RowLine := { la := la, lb := pl.1, ix := pl.2, scale := false, st := .todo }
          { s with tp := { s.tp with resync := some { q' with copied := q'.copied + 1 } } }.sendLine
            (lineAccess 11 n l .read .resync)
        else { s with tp := { s.tp with resync := some q' } }
    | _, _ => s

/-- Resync lines still at the banks or unanswered by the peer. -/
def State.resyncBusy (s : State) : Bool :=
  s.tp.await.any (fun w => !w.fetch && w.dest == .resync) ||
  (List.range s.nGroups).any fun g =>
    let q := s.group g
    (q.waitq ++ q.arriving ++ q.parked).any fun a => a.dest == .resync

end Sys2Proof.Machine
end

