-- ==== Sys2Proof/Machine/Wake.lean ====
section
/-! DEFINITION. Quiet turns and the abandoning of a power-state entry (R260, R261, R263): what every arrival from outside does
to an entry under way. -/
namespace Sys2Proof.Machine

/-- Requests of a lane accepted and not yet answered (`OUT_R`, `OUT_A`). -/
def Port.outOf (q : Port) (lane : List Nat) : Nat :=
  (lane.filter fun u => match q.req u with
    | some r => r.phase != .refused
    | none => false).length

/-- `PORT[p].STAT.OUT_R`, `OUT_A` (Table 3.14). -/
def Port.outR (q : Port) : Nat := q.outOf q.laneR
def Port.outA (q : Port) : Nat := q.outOf q.laneA

/-- The timed queue, owner batch entries, unanswered packets, migrations, resyncs, recoveries: none (R260). -/
def State.idleUnits (s : State) : Bool :=
  s.timedQ.isEmpty && s.rp.batches.isEmpty && s.rp.sendBuf.isEmpty && s.tp.await.isEmpty && s.tp.resync.isNone
  && (List.range 8).all fun sl => (s.slice sl).migr.isNone && (s.slice sl).recov.isNone

/-- Ports with nothing outstanding, CP aside where `cp` is false (R260, R266). -/
def State.portsQuiet (s : State) (cp : Bool) : Bool :=
  (List.range (if cp then 13 else 12)).all fun p => (s.port p).outR == 0 && (s.port p).outA == 0

/-- Clears the firmware freeze of a power state: groups of a held slice stay frozen (R263, R264). -/
def State.thaw (s : State) : State :=
  foldState (fun s sl => if s.held sl then s else s.setFld oFrzFw (4 * sl + 3) (4 * sl) 0) (List.range 8) s

/-- Replaces the entry under way, shown in `ENTERING` and `ESTEP`. -/
def State.setEntry (s : State) (e : Option Entry) : State :=
  let k := match e with
    | some e => if e.step ≤ 6 then e.step else 0
    | none => 0
  { s.setFld oPwrStat 61 58 (if k = 0 then 0 else 8 + k) with pw := { s.pw with entry := e } }

/-- A wake event during an entry: in E1 to E4 it is abandoned, in E5 and E6 latched (R263). -/
def State.abandonEntry (s : State) : State :=
  match s.pw.entry with
  | none => s
  | some e =>
    if e.step ≤ 4 then
      let s := (s.thaw.setEntry none).bump oAborts 31 0 1
      match e.cmd with
      | some n => s.outcome n 13 4
      | none => s
    else if e.step ≤ 6 then { s with pw := { s.pw with wakeLatched := true } }
    else s

/-- Something arrives from outside: the turn is not quiet, and it is a wake event (R260, R261). -/
def State.touch (s : State) : State := State.abandonEntry { s with pw := { s.pw with quiet := false } }

end Sys2Proof.Machine
end

