-- ==== Sys2Proof/Machine/Fence.lean ====
section
/-! DEFINITION. Cutting a port's work short: the hog cutoff's line accesses (R66, R108, R180), fencing (R291, R292), protocol
errors (R67), link packets taken in (R49). -/
namespace Sys2Proof.Machine

/-! ## Line accesses withdrawn -/

/-- The request a line access belongs to. -/
def Access.of (a : Access) (p uid : Nat) : Bool :=
  match a.dest with
  | .req p' u _ _ => p' == p && u == uid
  | .checker u => p == 12 && u == uid
  | _ => false

/-- A withdrawn access leaves its line unissued. -/
def State.unissue (s : State) (a : Access) : State :=
  match a.dest with
  | .req p u i j => s.setLine p u i j .todo
  | .checker u => s.setLine 12 u 0 0 .todo
  | _ => s

/-- Withdraws accesses of a group: those waiting that `fw` names, those arrived or parked that `fp` names. -/
def State.withdrawAt (fw fp : Access → Bool) (s : State) (g : Nat) : State :=
  let q := s.group g
  let out := (q.waitq.filter fw) ++ (q.arriving.filter fp) ++ (q.parked.filter fp)
  foldState State.unissue out (s.modGroup g fun q =>
    { q with waitq := q.waitq.filter (fun a => !fw a), arriving := q.arriving.filter (fun a => !fp a),
             parked := q.parked.filter (fun a => !fp a) })

/-- Withdraws accesses of every group. -/
def State.withdraw (s : State) (fw fp : Access → Bool) : State :=
  foldState (State.withdrawAt fw fp) (List.range s.nGroups) s

/-- Ends a write with a code (13 by the hog cutoff, 8 by fencing): its accesses leave the queues, but an accumulate's rows issued in
part complete, each line in its turn (R108, R180). -/
def State.cutWrite (s : State) (p : Nat) (r : Req) (code : Nat) : State :=
  let s := s.modReq p r.uid fun r => { r with cut := some code }
  if isAcc (hOpc r.h) then s
  else s.withdraw (fun a => a.of p r.uid) (fun a => a.of p r.uid)

/-! ## Fencing (R291, R292) -/

/-- A routed operation whose `RSIG` has not been driven is dropped unapplied (R291 step 5). -/
def State.dropSignalOf (s : State) (r : Req) : State :=
  { s with rp := { s.rp with sendBuf := s.rp.sendBuf.filter fun w => w.sig != some r.uid } }

/-- What port 10 holds at a ring's bound is dropped unapplied: a signal without trace, a batch's advance with `FENCED` for its
closing packet (R291 steps 5 and 6, log 24). -/
def State.dropRpHeld (s : State) : State :=
  foldState (fun s (e : Nat × OBatch) =>
    match e.2.closing with
    | some (h, _) => if e.2.ringHeld then (s.rnack h 8).freeBatch e.1 else s
    | none => s) s.rp.batches { s with timedQ := s.timedQ.filter fun t => !t.held }

/-- Packets held at the owner's checks for a context miss are refused with `FENCED` (R292, Table 9.7). -/
def State.refuseRpHeld (s : State) : State :=
  foldState (fun s (e : Pkt × List Byte × Word) => s.refusePkt e.1 8) s.rp.held { s with rp := { s.rp with held := [] } }

/-- RP is fenced: what it holds is dropped or refused, and receive credits are returned. -/
def State.fenceRp (s : State) : State := (s.dropRpHeld.refuseRpHeld).repayLink false

/-- An accepted request of a port being fenced; an accumulate's rows already issued complete (R180). -/
def State.fenceReq (p : Nat) (s : State) (r : Req) : State :=
  let s := s.dropSignalOf r
  if r.ans.isSome ∨ r.phase = .refused then s
  else if isAcc (hOpc r.h) || (isWrite (hOpc r.h) && !r.allFull) then s.cutWrite p r 8
  else s.modReq p r.uid fun r => { r with cut := some 8, rows := r.rows.map fun w => { w with held := false } }

/-- Closes every stream of a port, ending its hold on its region. -/
def State.closeStreams (s : State) (p : Nat) : State :=
  foldState (fun s (k : Nat) =>
    let t := (s.port p).stream k
    if t.isOpen then (s.dropRgn t.rgn).modPort p fun q => q.setStream k Stream.closed else s) [0, 1, 2, 3] s

/-- The parked accesses of a port are escalated, no others (R105). -/
def State.escalate (p : Nat) (s : State) (g : Nat) : State :=
  s.modGroup g fun q => { q with parked := q.parked.map fun a => if a.agent == p then { a with esc := true } else a }

/-- Fences a port with a reason. -/
def State.fencePort (s : State) (p reason : Nat) : State :=
  if p = 12 ∨ (s.port p).fence ≠ .free then s
  else
    let s := (s.modPort p fun q => { q with fence := .draining reason }).setFld (oProg p) 63 60 reason
    let s := if isPartner p then (s.event p 4 0 0 (BitVec.ofNat 64 reason)).sendEvents p else s
    let s := if reason ≤ 3 then s.keepFault 3 p 0 0 reason else s
    let s := s.modPort p fun q => { q with due := q.due.map fun d => { d with refused := true } }
    let s := foldState (State.fenceReq p) (s.port p).reqs s
    let s := if p < 10 then s.withdraw (fun a => a.agent == p && !a.op.isAdd) (fun _ => false) else s
    let s := s.closeStreams p
    let s := foldState (State.escalate p) (List.range s.nGroups) s
    let s := s.admitHeld p ((s.port p).inq.length + 1)
    let s := if p = 10 then s.fenceRp else if p = 11 then s.goDown else s
    s.settle p

/-! ## Protocol errors (R67) -/

/-- A header, beat or packet without a credit (bit 0) or a beat without a write (bit 1): the bit is set, and the port is fenced
where `AF_PROTO` asks for it. -/
def State.protoErr (s : State) (p i : Nat) : State :=
  let s := s.setBit (oPErr p) i
  if s.bit (oHangPort p) 1 ∧ p ≠ 12 then s.fencePort p 3 else s

/-- A chuck takes requests, beats and packets: present, its fabric clocked, out of reset, not held after a partition reset
(R295). -/
def State.open (s : State) (p : Nat) : Bool := s.hasPort p && s.awake && !s.pins.poreset && !s.bit (oProg p) 59

/-- A partner bundle that takes headers and beats. -/
def State.openPartner (s : State) (p : Nat) : Bool := s.open p && isPartner p

/-! ## Inbound link packets (R49, R190, R204) -/

/-- Takes in a packet on a receive credit, of which the link holds none while it is down; checks that it is one of the chuck's
forms and for this instance, acts on it and returns the credit. -/
def State.inbound (s : State) (tp : Bool) (h : Pkt) (act : State → State) : State :=
  let p := linkPort tp
  if !s.open p then s
  else if (s.link tp).rxCrd = 0 then s.protoErr p 0
  else
    let s := s.touch
    let l := s.link tp
    let s := s.setLink tp { l with rxCrd := l.rxCrd - 1 }
    let mine := if tp then decide (8 ≤ kType h) else decide (kType h ≤ 3)
    let s := if pktForm h && mine && kDiid h == s.iid then act s else if tp then s else s.setBit oRmtErr 5
    s.repayLink tp

end Sys2Proof.Machine
end

