-- ==== Sys2Proof/Machine/Slices.lean ====
section
/-! DEFINITION. Retirement and slice recovery (§10.6, §13.5, §13.6): the start and the end of a migration (Table 10.4), holding
and releasing a slice. -/
namespace Sys2Proof.Machine

/-! ## Retirement (R226 to R229) -/

/-- Which logical bank a spare serves, in `INT.SPARE`. -/
def State.setSpareLb (s : State) (sl pos lb : Nat) : State :=
  if pos = 64 then s.setFld (oSpare sl) 8 0 lb else s.setFld (oSpare sl) 24 16 lb

/-- A retirement trigger other than a hard fault found no free spare: the array stays in service (R226). -/
def State.noteNoSpare (s : State) (lb : Nat) : State := (s.finding 6 14 (s.physOf lb) 0 0xFF 0 none).setBit oIntErr 10

/-- Starts the migration of a logical bank to a spare (Table 10.4 steps 1 to 3). -/
def State.startMigration (s : State) (lb spare : Nat) (cmd : Option Nat) : State :=
  let sl := sliceOf lb
  let s := match (s.slice sl).shaving with
    | some sh => if groupOf sh.lb = groupOf lb then s.abandonShaving sl .freeze else s
    | none => s
  let s := s.stopTest sl fun b => groupOf b == groupOf lb
  let old := s.field (oRemap lb) 6 0
  let s := ((s.setSpare sl spare 2).setSpareLb sl spare lb).setFld (oSpare sl) 46 32 0
  let s := (s.setFld (oRemap lb) 17 16 1).setFld (oRemap lb) 14 8 spare
  s.modSlice sl fun q =>
    { q with migr := some { lb := lb, old := old, spare := spare, next := 0, suspended := false, cmd := cmd },
             wantRetire := q.wantRetire.filter (· != lb) }

/-- The switch to the spare once every line is copied (Table 10.4 steps 5 and 6). -/
def State.switchMigration (s : State) (sl : Nat) (m : Migr) : State :=
  let s := ((s.setFld (oRemap m.lb) 6 0 m.spare).setFld (oRemap m.lb) 17 16 0).setFld (oRemap m.lb) 14 8 0
  let s := s.setSpare sl m.spare 1
  let s := if m.old < 64 then s.setFld (oRetired sl) m.old m.old 1 else s.setSpare sl m.old 3
  let s := ((s.keepSpares sl 1).finding 6 14 (66 * sl + m.old) 0 m.spare 0 none).setBit oIntErr 7
  let s := s.modSlice sl fun q => { q with migr := none }
  match m.cmd with
  | some n => s.reply n 0 0x14 [m.spare]
  | none => s

/-! ## Holding a slice, recovery (R296 to R299) -/

/-- Sets or clears a slice's four bits of `SLOT.FRZ_FW`. -/
def State.freezeSlice (s : State) (sl : Nat) (on : Bool) : State := s.setFld oFrzFw (4 * sl + 3) (4 * sl) (if on then 15 else 0)

/-- Step H1: the slice is held and frozen, its shaving abandoned, its migration suspended. -/
def State.holdSlice (s : State) (sl : Nat) : State :=
  let s := (((s.abandonShaving sl .freeze).stopTest sl fun _ => true).dropEngine (.copy sl)).freezeSlice sl true
  s.modSlice sl fun q => { q with hold := true, migr := q.migr.map fun m => { m with suspended := true } }

/-- Recoveries that run. -/
def State.recoveries (s : State) : Nat :=
  ((List.range 8).filter fun sl => match (s.slice sl).recov with
    | some r => r.running
    | none => false).length

/-- Starts a recovery, or lets it wait for a place behind those that wait already (R298). -/
def State.startRecovery (s : State) (sl : Nat) (recal : Bool) (cmd : Option Nat) : State :=
  let run := decide (s.recoveries < 2) && s.fw.recovQ.isEmpty
  let s := s.modSlice sl fun q => { q with recov := some { running := run, recal := recal, again := false, restarted := false, cmd := cmd } }
  if run then s.setBit oRstStat sl
  else { s.setBit oRstStat (8 + sl) with fw := { s.fw with recovQ := s.fw.recovQ ++ [sl] } }

/-- An access in flight in a faulty slice completes with `ECC` (R296). -/
def State.failAccess (s : State) (a : Access) : State := s.deliver a.dest a.la 3 false []

/-- Every access in flight in a slice completes with `ECC`. -/
def State.failSlice (s : State) (sl : Nat) : State :=
  foldState (fun s g =>
    let q := s.group g
    foldState State.failAccess (q.parked ++ q.arriving)
      (s.modGroup g fun q => { q with parked := [], arriving := [], busy := [] })) [4 * sl, 4 * sl + 1, 4 * sl + 2, 4 * sl + 3] s

/-- No access of ports 0 to 12 is parked in a group or in its bank pipelines (`SLOT.DRAINED`, R109). -/
def State.drained (s : State) (g : Nat) : Bool :=
  let q := s.group g
  (q.parked.all fun a => decide (12 < a.agent)) && q.busy.isEmpty

end Sys2Proof.Machine
end

