-- ==== Sys2Proof/Machine/Integrity.lean ====
section
/-! DEFINITION. Commands of the arrays (chapters 5, 10 and 13): grant cycles, the accumulate gate, shavings, retirement, slice
faults and recoveries. -/
namespace Sys2Proof.Machine

/-! ## Group switches (R101, R174) -/

/-- A group takes its grant of this cycle: its slice is clocked and the cycle is a grant cycle not yet used (R94). -/
def State.mayGrant (s : State) (g : Nat) : Bool :=
  let q := s.slice (g / 4)
  decide (g < s.nGroups) && s.awake && !s.pins.poreset && q.powered && q.gc && !(s.group g).granted

/-- A grant cycle of a group (R101): `trips` are the banks whose access check tripped (R223). -/
def execBankGrant (g : Nat) (trips : List Nat) (s : State) : Host.Outcome State Fault Refusal :=
  .next (if s.mayGrant g then (s.grantCycle g trips).settleAll else s)

/-- The accumulate gate of a group admits a line (R174). -/
def execAccumulateGateAdmit (g : Nat) (s : State) : Host.Outcome State Fault Refusal :=
  .next (if s.mayGrant g then s.gateAdmit g else s)

/-! ## The background test (R219 to R225) -/

/-- A test engine starts the next shaving of a test run, or the walk's next shaving, or skips it (R222, R282). -/
def execShavingStart (sl : Nat) (s : State) : Host.Outcome State Fault Refusal :=
  .next (if !s.engineFree sl then s
    else match (s.slice sl).test with
      | some t => s.startShaving sl t.lb (128 * t.idx) t.cal true
      | none => if s.periodOver sl then s.walk sl else s)

/-- A test engine begins the next step of its shaving at a turn boundary, at most one a turn (R219): its accesses come in BT's
slots (R111). `seen` is what the arrays give its reads (log 15). -/
def execShavingStep (sl : Nat) (seen : ReadBack) (s : State) : Host.Outcome State Fault Refusal :=
  .next (match (s.slice sl).shaving with
    | some sh =>
      if s.awake ∧ !s.pins.poreset ∧ (s.slice sl).powered ∧ s.cyc = 0 ∧ sh.left = 0 ∧ (s.slice sl).stepAt ≠ some s.turn then
        s.modSlice sl fun q => { q with shaving := some { sh with left := 64, seen := seen }, stepAt := some s.turn }
      else s
    | none => s)

/-! ## Retirement (R226, R227) -/

/-- The trigger of a retirement stands. -/
def State.retireDue (s : State) (lb : Nat) (cause : RetireCause) : Bool :=
  match cause with
  | .hardFault => (s.slice (sliceOf lb)).wantRetire.contains lb
  | .words => s.beyondWords lb

/-- CC2 starts a retirement, or the bank becomes DEAD for want of a spare (R226). -/
def State.retire2 (s : State) (lb : Nat) (cause : RetireCause) : State :=
  let sl := sliceOf lb
  match s.freeSpare sl with
  | some pos => s.startMigration lb pos none
  | none =>
    match cause with
    | .hardFault => (s.makeDead lb).modSlice sl fun q => { q with wantRetire := q.wantRetire.filter (· != lb) }
    | .words => s.noteNoSpare lb

/-- CC2 starts retiring a logical bank (R226); a migration needs a BT slot in the bank's group (Table 10.4 step 1, Table 10.5). -/
def execRetirementStart (lb : Nat) (cause : RetireCause) (s : State) : Host.Outcome State Fault Refusal :=
  .next (if s.coreRuns 2 ∧ ((s.freeSpare (sliceOf lb)).isNone || s.btSlot (groupOf lb)) ∧ lb < s.nBanks ∧ !s.dead lb ∧ (s.slice (sliceOf lb)).migr.isNone ∧ !(s.slice (sliceOf lb)).hold
      ∧ s.retireDue lb cause then s.retire2 lb cause else s)

/-- The copy is complete: at a turn boundary the remap switches to the spare (R227). -/
def execMigrationSwitch (sl : Nat) (s : State) : Host.Outcome State Fault Refusal :=
  .next (match (s.slice sl).migr with
    | some m => if s.coreRuns 2 ∧ m.next = 16384 ∧ !m.suspended ∧ s.cyc = 0 then s.switchMigration sl m else s
    | none => s)

/-! ## Slice faults and recoveries (R296 to R299) -/

/-- `RST.FAULT` bit of a slice fault. -/
def faultBit (sl : Nat) (kind : SliceFaultKind) : Nat :=
  match kind with
  | .pll => sl
  | .reg => 8 + sl
  | .xing => 16 + sl

/-- What a fault does to the slice's recovery (R296, Table 13.4). -/
def State.faultRecovery (s : State) (sl : Nat) : State :=
  match (s.slice sl).recov with
  | some r =>
    if !r.running then s
    else (if r.restarted then s.setBit oRstFault 24 else s).modSlice sl fun q => { q with recov := some { r with again := true } }
  | none => if s.bit oRstCfg 0 ∧ s.fwRuns then s.startRecovery sl (s.bit oRstCfg 1) none else s

/-- A PLL, regulator or crossing fault (R296). -/
def execSliceFault (sl : Nat) (kind : SliceFaultKind) (s : State) : Host.Outcome State Fault Refusal :=
  .next (if sl ≥ s.build.slices ∨ s.pins.poreset then s
    else
      let s := ((s.setBit oRstFault (faultBit sl kind)).failSlice sl).holdSlice sl
      let s := s.keepFault 5 0 sl 0 (s.reg oRstFault).toNat
      (s.faultRecovery sl).settleAll)

/-- A waiting recovery starts when a place frees (R298). -/
def execRecoveryStart (s : State) : Host.Outcome State Fault Refusal :=
  .next (match s.fw.recovQ with
    | [] => s
    | sl :: rest =>
      if s.fwRuns ∧ s.recoveries < 2 then
        let s := { (s.setFld oRstStat (8 + sl) (8 + sl) 0).setBit oRstStat sl with fw := { s.fw with recovQ := rest } }
        s.modSlice sl fun q => { q with recov := q.recov.map fun r => { r with running := true } }
      else s)

/-- Recalibration sets the trim of each bank afresh, and records the groups' highest trims in the keep domain (H4). A bank without a
trim at which both guard reads pass (16, log 15) has a hard fault, whose retirement follows H5 (Table 13.4). -/
def State.recalibrate (s : State) (sl : Nat) (trims : List Nat) : State :=
  let s := foldState (fun s (i : Nat) =>
    let pb := 66 * sl + i
    let t := trims.getD i 8
    let s := s.setFld (oTrim (pb / 16)) (4 * (pb % 16) + 3) (4 * (pb % 16)) (min t 15)
    if 15 < t then s.arrayFault pb else s) (List.range 66) s
  let top (a n : Nat) : Nat := ((List.range n).map fun (i : Nat) => min (trims.getD (a + i) 8) 15).foldl max 0
  let v := top 0 16 + top 16 16 * 16 + top 32 16 * 256 + top 48 16 * 4096 + top 64 1 * 2 ^ 16 + top 65 1 * 2 ^ 20
  s.keepWrite (18 + 1 + sl) (wput (s.reg (oKeep (18 + 1 + sl))) 55 32 v)

/-- The end of a recovery: restarted once after a second fault, left held after a third, else released (H5, Table 13.4). -/
def State.endRecovery (s : State) (sl : Nat) (r : Recov) (trims : List Nat) (tests : List SpareTest) : State :=
  let s := if r.recal then (s.recalibrate sl trims).testSpares tests sl else s
  let s := foldState (fun s g => s.modGroup g fun q => { q with gateWait := 0 }) [4 * sl, 4 * sl + 1, 4 * sl + 2, 4 * sl + 3] s
  if r.again ∧ !r.restarted then
    s.modSlice sl fun q => { q with recov := some { r with again := false, restarted := true, recal := true } }
  else
    let s := (s.setFld oRstStat sl sl 0).modSlice sl fun q => { q with recov := none }
    let s :=
      if r.again then s
      else
        let s := (s.freezeSlice sl false).bump oRstStat 63 32 1
        let s := if (s.slice sl).migr.isSome then s.setFld (oSpare sl) 46 32 0 else s
        s.modSlice sl fun q => { q with hold := false, migr := q.migr.map fun m => { m with next := 0, suspended := false } }
    match r.cmd with
    | some n => s.outcome n 0 2
    | none => s

/-- A slice recovery ends, its groups drained (R297); `found` is what recalibration and the tests of the unused spares found (log 15). -/
def execRecoveryComplete (sl : Nat) (found : Recalibration) (s : State) : Host.Outcome State Fault Refusal :=
  .next (match (s.slice sl).recov with
    | some r =>
      if s.fwRuns ∧ r.running ∧ (s.slice sl).powered ∧ ([4 * sl, 4 * sl + 1, 4 * sl + 2, 4 * sl + 3] : List Nat).all s.drained then
        (s.endRecovery sl r found.trims found.tests).settleAll
      else s
    | none => s)

end Sys2Proof.Machine
end

