-- ==== Sys2Proof/Machine/RemoteOps.lean ====
section
/-! DEFINITION. The RP chuck (§9.1 to §9.6, §7.8): segments and batches at the sender, the send buffer, the owner's checks,
batch entries, the timed queue. -/
namespace Sys2Proof.Machine

/-! ## FTIME (R163, R312) -/

/-- `FTIME` as sampled now; a decrease sets `FTIME_BAD`. -/
def State.sample (s : State) (ftime : Word) : State :=
  let s := if ftime.toNat < s.ftime.toNat then s.setBit oSyncErr 3 else s
  { s with ftime := ftime }

/-! ## The send buffer (R197 to R199) -/

/-- The next unused packet tag in turn (DESIGN CHOICE, log 63). -/
def State.newPtag (s : State) : Nat :=
  ((List.range 512).map fun (i : Nat) => (s.rp.nextTag + i) % 512).find? (fun t => !s.rp.sendBuf.any fun w => w.ptag == t) |>.getD 0

/-- Packets kept until answered: room for one more. -/
def State.sendRoom (s : State) : Bool := decide (s.rp.sendBuf.length < 512)

/-- Keeps a packet in the send buffer. -/
def State.keepSent (s : State) (w : Sent) : State :=
  let s := { s with rp := { s.rp with sendBuf := s.rp.sendBuf ++ [w], nextTag := (w.ptag + 1) % 512 } }
  s.raise oRmtStat 25 16 s.rp.sendBuf.length

/-- The batch record of a port to a window (R193). -/
def State.recOf (s : State) (p diid win : Nat) : Option BatchRec :=
  s.rp.recs.find? fun r => r.port == p && r.diid == diid && r.win == win

/-- Changes a batch record; one with nothing counted and nothing unanswered is freed. -/
def State.setRec (s : State) (r : BatchRec) : State :=
  let rest := s.rp.recs.filter fun x => !(x.port == r.port && x.diid == r.diid && x.win == r.win)
  { s with rp := { s.rp with recs := if r.count = 0 ∧ r.closes = 0 then rest else rest ++ [r] } }

/-- The record a packet to a window counts in; none while it must wait (R193). -/
def State.useRec (s : State) (p diid win : Nat) : Option BatchRec :=
  match s.recOf p diid win with
  | some r => if r.count = 0 ∧ 4 ≤ r.closes then none else some r
  | none => if s.rp.recs.length < 64 then some { port := p, diid := diid, win := win, bseq := 0, count := 0, closes := 0 } else none

/-- The remote write is answered once all its packets have been sent and answered (R197). -/
def Req.remoteDone (r : Req) (segs : Nat) : Bool :=
  decide (r.segs = segs) && (!hFinal r.h || r.closed) && r.outPk == 0

/-- Segments of a row of B delivered bytes. -/
def segsPerRow (b : Nat) : Nat := ceilDiv b 128

/-- Segments of a remote write. -/
def Req.segCount (r : Req) : Nat := r.rows.length * segsPerRow r.rowLen

/-- Answers the issuing port where nothing more is to come. -/
def State.finishRemote (s : State) (p uid : Nat) : State :=
  match (s.port p).req uid with
  | none => s
  | some r =>
    if r.ans.isNone ∧ r.cut.isNone ∧ r.remoteDone r.segCount then
      s.modReq p uid fun r => { r with ans := some (r.codes.foldl worst 0, 0) }
    else s

/-- A packet has been answered for its remote write with a code. -/
def State.packetAnswered (s : State) (w : Sent) (code : Nat) : State :=
  let s := s.dropSent w.ptag
  let s := if kType w.h = 1 ∧ kBit4 w.h then
      match s.recOf w.port (kDiid w.h) (kWin w.h) with
      | some r => s.setRec { r with closes := r.closes - 1 }
      | none => s
    else s
  match w.uid with
  | none => s
  | some u =>
    let s := s.modReq w.port u fun r => { r with codes := code :: r.codes, outPk := r.outPk - 1 }
    let s := if code = 9 then s.setBit (oPErr 10) 4 else s
    s.finishRemote w.port u

/-! ## Sending a remote write (R185, R193, R194) -/

/-- Bytes of segment `j` of row `i`, once they have arrived. -/
def Req.segment (r : Req) (ww i j : Nat) : Option (List Byte) :=
  let stop := min r.rowLen (128 * (j + 1))
  if r.rowFull i ∨ (r.rowBeats i).length * ww ≥ stop then some (((r.rowData ww i).take stop).drop (128 * j)) else none

/-- Sends the next segment or the closing packet of a request; none where it must wait. -/
def State.sendNext (s : State) (p : Nat) (r : Req) : Option State :=
  let a := hAddr r.h
  let iid := rIid a
  let win := rWin a
  if !s.sendRoom then none
  else if r.segs < r.segCount then
    let i := r.segs / segsPerRow r.rowLen
    let j := r.segs % segsPerRow r.rowLen
    match r.segment (widthW p) i j, s.useRec p iid win with
    | some data, some b =>
      let t := s.newPtag
      let h := mkPkt [(0, 1), (8, s.iid), (23, iid), (38, p), (42, win), (50, rGen a), (66, b.bseq), (69, hDfmt r.h), (72, t),
        (85, (r.rows.getD i (Row.todo 0 [])).byte), (112, j), (121, data.length - 1)]
      let w : Sent := { ptag := t, h := h, data := data, port := p, uid := some r.uid, since := s.turn, retryAt := none, sig := none }
      let s := (s.keepSent w).setRec { b with count := b.count + 1 }
      some ((s.modReq p r.uid fun r => { r with segs := r.segs + 1, outPk := r.outPk + 1 }).send false h data)
    | _, _ => none
  else if hFinal r.h ∧ !r.closed then
    match s.useRec p iid win with
    | some b =>
      let t := s.newPtag
      let h := mkPkt [(0, 1), (4, 1), (5, b2n (hRel r.h)), (6, hScope r.h), (8, s.iid), (23, iid), (38, p), (42, win), (50, rGen a),
        (66, b.bseq), (72, t)]
      let data := bytesLE 4 b.count ++ bytesLE 2 (hSid r.h) ++ bytesLE 2 (hFadd r.h)
      let w : Sent := { ptag := t, h := h, data := data, port := p, uid := some r.uid, since := s.turn, retryAt := none, sig := none }
      let s := (s.keepSent w).setRec { b with bseq := (b.bseq + 1) % 8, count := 0, closes := b.closes + 1 }
      some ((s.modReq p r.uid fun r => { r with closed := true, outPk := r.outPk + 1 }).send false h data)
    | none => none
  else none

/-- Sends what it can of a request. `fuel` bounds the packets. -/
def State.sendAll (s : State) (p uid : Nat) : Nat → State
  | 0 => s
  | n + 1 =>
    match (s.port p).req uid with
    | none => s
    | some r =>
      match s.sendNext p r with
      | some t => t.sendAll p uid n
      | none => s

/-- The remote write of a port whose packets go next: in header order (R185). -/
def Port.remoteNext (q : Port) : Option Req :=
  q.reqs.find? fun r => r.space == 3 && r.phase == .active && r.ans.isNone && r.cut.isNone
    && (decide (r.segs < r.segCount) || (hFinal r.h && !r.closed))

/-! ## The owner (R191, R192) -/

def State.winOpen (s : State) (w : Nat) : Bool := s.tab (oWin w) 62 62 == 1
def State.winGen (s : State) (w : Nat) : Nat := s.tab (oWin w) 47 32
def State.winSize (s : State) (w : Nat) : Nat := s.tab (oWin w) 30 16
def State.winBase (s : State) (w : Nat) : Nat := s.tab (oWin w) 13 0

/-- A sender is permitted (R186). -/
def State.permitsSender (s : State) (w siid : Nat) : Bool :=
  let m := s.tab (oSnd w) 30 16
  siid &&& m == s.tab (oSnd w) 14 0 &&& m

/-- Checks 1 to 3 of Table 9.7: refused, a context miss, or the slot of the window's context. -/
inductive OwnerCheck where
  | refuse (code : Nat)
  | miss
  | pass (slot : Nat)
  deriving DecidableEq, Repr

def State.ownerCheck (s : State) (h : Pkt) : OwnerCheck :=
  let w := kWin h
  if (s.port 10).fence ≠ .free then .refuse 8
  else if !s.winOpen w ∨ s.winGen w ≠ kGen h then .refuse 9
  else if !s.permitsSender w (kSiid h) then .refuse 7
  else if !s.isBound (s.winCtx w) then .refuse 10
  else match s.slotOf (s.winCtx w) with
    | none => .miss
    | some i => .pass i

/-- The batch entry of a packet, found or allocated (R195). -/
def State.batchEntry (s : State) (h : Pkt) : Option (Nat × State) :=
  let same (e : OBatch) : Bool := e.siid == kSiid h && e.sport == kSport h && e.win == kWin h && e.bseq == kBseq h
  match s.rp.batches.find? fun e => same e.2 with
  | some e => some (e.1, s)
  | none =>
    match (List.range 256).find? fun b => (tfind s.rp.batches b).isNone with
    | none => none
    | some b =>
      let e := { OBatch.empty with siid := kSiid h, sport := kSport h, win := kWin h, bseq := kBseq h, since := s.turn }
      some (b, { s with rp := { s.rp with batches := tset s.rp.batches b e } })

/-- Storage span of a segment in bits from the start of memory: first bit and length (R191). -/
def State.segSpan (s : State) (h : Pkt) (fmt : Nat) : Nat × Nat :=
  let d := delivBits (kDfmt h) / 8
  let b := if kDfmt h < 6 then storeBits fmt else 8
  (64 * (s.winBase (kWin h) * 8192 + kOfs h) + 128 * kSeg h / d * b, (kDlen h + 1) / d * b)

/-- Checks 6 to 8 of Table 9.7 for a data packet: the code, 0 where it passes. -/
def State.segCode (s : State) (slot : Nat) (h : Pkt) : Nat :=
  let w := kWin h
  let d := delivBits (kDfmt h) / 8
  if (kDlen h + 1) % d ≠ 0 ∨ 128 * kSeg h % d ≠ 0 then 6
  else
    let n0 := s.regionAt (s.winBase w * 8192)
    let sp := s.segSpan h (match n0 with | some n => s.rgnFmt n | none => 0)
    let lo := s.winBase w * 524288
    if sp.1 < lo ∨ lo + s.winSize w * 524288 < sp.1 + sp.2 then 5
    else match s.regionAt (sp.1 / 64) with
      | none => 5
      | some n =>
        let fmt := s.rgnFmt n
        let bb := 8 * mxBlockBytes fmt
        if s.rgnLock n then 1
        else if !s.permitted n slot 10 33 then 7
        else if !pairWrite fmt (kDfmt h) ∨ kDfmt h = dMx then 6
        else if sp.1 % 64 ≠ 0 ∨ sp.2 % 64 ≠ 0 ∨ (isMx fmt ∧ ((sp.1 - s.rgnBase n * 524288) % bb ≠ 0 ∨ sp.2 % bb ≠ 0)) then 4
        else if s.rgnEnd n * 8 < sp.1 + sp.2 then 5
        else if (s.rowLines n (sp.1 / 8) (sp.2 / 8)).any fun l => s.held (sliceOf l.lb) then 1
        else 0

/-- The writes of an accepted data packet, as agent 10 (R191, R192). -/
def State.acceptSegment (s : State) (b slot : Nat) (h : Pkt) (data : List Byte) : State :=
  let n := (s.regionAt (s.winBase (kWin h) * 8192)).getD 0
  let fmt := s.rgnFmt n
  let sp := s.segSpan h fmt
  let byte := sp.1 / 8
  let len := sp.2 / 8
  let q : Rounding := { rnd := s.rgnRnd n, seed := s.rgnSeed n, ep := s.epoch slot, bit := sp.1 }
  let bytes := data.take (kDlen h + 1)
  let row := storeRow fmt (kDfmt h) len (s.rgnAnchor n) q (bytes ++ List.replicate (kDlen h + 1 - bytes.length) 0)
  let lines := s.rowLines n byte len
  let op (l : RowLine) : AccOp :=
    if l.scale then .write (lineCells (s.scaleBase n + (s.blocksOf n byte len).1) l.la row.scales fun _ => true) false false
    else
      let fl := (List.range 16).filterMap fun (e : Nat) =>
        let a := 128 * l.la + 8 * e
        if fmt = fmtFx64 ∧ byte ≤ a then row.flags[(a - byte) / 8]? else none
      .write (lineCells byte l.la row.bytes fun _ => true) (fl.any fun f => f.1) (fl.any fun f => f.2)
  let id := s.uid
  let f : PkFly := { id := id, win := kWin h, batch := some b, left := lines.length, code := 0 }
  let s := { s.fresh with rp := { s.rp with fly := s.rp.fly ++ [f] } }
  let s := s.setFld (oSnd (kWin h)) 47 32 (s.tab (oSnd (kWin h)) 47 32 + 1)
  foldState (fun s l => s.sendLine (lineAccess 10 n l (op l) (.batch id))) lines s

/-- What a packet in RP comes to: answered, held for a context miss, or waiting for room in the timed queue. -/
inductive RpTake where
  | done (s : State)
  | miss
  | full

/-- A data packet (Table 9.7). -/
def State.takeData (s : State) (h : Pkt) (data : List Byte) : RpTake :=
  match s.ownerCheck h with
  | .refuse c => .done (s.refusePkt h c)
  | .miss => .miss
  | .pass slot =>
    match s.batchEntry h with
    | none => .done (s.refusePkt h 1)
    | some (b, t) =>
      let c := t.segCode slot h
      if c = 0 then .done ((t.acceptSegment b slot h data).rnack h 0)
      else .done ((if c = 1 then t else t.batchDone b c).refusePkt h c)

/-- A closing packet: it is held (R196). -/
def State.takeClosing (s : State) (h : Pkt) (data : List Byte) : RpTake :=
  match s.ownerCheck h with
  | .refuse c => .done (s.refusePkt h c)
  | .miss => .miss
  | .pass _ =>
    match s.batchEntry h with
    | none => .done (s.refusePkt h 1)
    | some (b, t) =>
      if fld (natLE (data.take 8)) 63 48 = 0 then .done (t.refusePkt h 6)
      else
        let e := (tfind t.rp.batches b).getD OBatch.empty
        .done { t with rp := { t.rp with batches := tset t.rp.batches b { e with closing := some (h, data), since := t.turn } } }

/-- A signal that passes its checks enters the timed queue (R162, R163), judged late or early by `FTIME` at its arrival. -/
def State.queueSignal (s : State) (h : Pkt) (data : List Byte) (arrival : Word) : State :=
  let due := natLE (data.take 8)
  let late := decide (due ≤ arrival.toNat)
  let early := decide (arrival.toNat + 2600 < due)
  let t : TSig :=
    { isFlag := kBit4 h, op := kOp h, ctx := s.winCtx (kWin h), rsid := kRsid h,
      val := BitVec.ofNat 64 (natLE ((data.drop 8).take 8)), due := if early then arrival.toNat + 2600 else due,
      siid := kSiid h, rel := if kRel h then some (kScope h) else none, sport := kSport h, held := false }
  let s := if late then ((s.bump oLate 31 0 1).raise oLate 63 32 (min (arrival.toNat - due) (2 ^ 32 - 1))).setBit oSyncErr 1 else s
  let s := if early then s.setBit oSyncErr 2 else s
  let s := { s with timedQ := s.timedQ ++ [t] }
  s.raise oSyncStat 57 48 s.timedQ.length

/-- A signal (Table 9.7). One whose `KIND` and `OP` name different kinds, of which the manual says nothing, is answered `CTX` as if
its `RSID` did not translate (DESIGN CHOICE, log 42). -/
def State.takeSignal (s : State) (h : Pkt) (data : List Byte) (arrival : Word) : RpTake :=
  match s.ownerCheck h with
  | .refuse c => .done (s.refusePkt h c)
  | .miss => .miss
  | .pass slot =>
    let ok := match s.translate slot (kBit4 h) false (kRsid h) with
      | .local _ => kBit4 h == (kOp h != 0)
      | _ => false
    if !ok then .done (s.refusePkt h 10)
    else if 512 ≤ s.timedQ.length then .full
    else .done ((s.queueSignal h data arrival).rnack h 0)

/-- Acts on a packet in RP, by its type. -/
def State.takePkt (s : State) (h : Pkt) (data : List Byte) (arrival : Word) : RpTake :=
  if kType h = 2 then s.takeSignal h data arrival
  else if kBit4 h then s.takeClosing h data
  else s.takeData h data

/-- A packet that reaches the owner's checks: it waits behind one already held (R162). -/
def State.arrivePkt (s : State) (h : Pkt) (data : List Byte) (arrival : Word) : State :=
  let hold : State := { s with rp := { s.rp with held := s.rp.held ++ [(h, data, arrival)] } }
  if s.rp.held ≠ [] then hold
  else match s.takePkt h data arrival with
    | .done t => t
    | _ => hold

/-- Held packets go on in order, as far as they can. `fuel` bounds them. -/
def State.serveHeld (s : State) : Nat → State
  | 0 => s
  | n + 1 =>
    match s.rp.held with
    | [] => s
    | (h, d, a) :: rest =>
      match { s with rp := { s.rp with held := rest } }.takePkt h d a with
      | .done t => t.serveHeld n
      | _ => s

/-! ## Application at the owner as port 10 (R147, R156, R162, R196) -/

/-- An operation of port 10 is held at a ring's bound. -/
def State.rpHeld (s : State) : Bool := s.timedQ.any (fun t => t.held) || s.rp.batches.any fun e => e.2.ringHeld

/-- The counter or flag a queued signal names. -/
def State.sigPhys (s : State) (t : TSig) : Option Nat :=
  match s.slotOf t.ctx with
  | none => none
  | some i => match s.translate i t.isFlag false t.rsid with
    | .local n => some n
    | _ => none

/-- Applies a signal to its counter or flag; none where its ring holds it. -/
def State.applySignal (s : State) (t : TSig) (n : Nat) : Option State :=
  let m : Modif := { port := t.sport, rel := t.rel, iid := some t.siid }
  if t.isFlag then some (s.putFlg n (t.op == 1) m)
  else if s.fits n t.val.toNat then some (s.addCtr n t.val.toNat m)
  else none

/-- Queued signals that are due, in the order of R147. -/
def State.dueSignals (s : State) : List TSig :=
  (s.timedQ.filter fun t => decide (t.due ≤ s.ftime.toNat)).foldl (fun acc t =>
    let before (x : TSig) : Bool := decide (x.due < t.due) || (x.due == t.due && decide (x.siid ≤ t.siid))
    acc.takeWhile before ++ [t] ++ acc.dropWhile before) []

/-- Takes one signal out of the timed queue. -/
def State.dropSignal (s : State) (t : TSig) : State := { s with timedQ := s.timedQ.eraseIdx (s.timedQ.idxOf t) }

/-- What follows room in the timed queue: held packets go on, receive credits are returned. -/
def State.afterSignal (s : State) : State := (s.serveHeld (s.rp.held.length + 1)).repayLink false

/-- A batch has all its packets done, and its closing packet waits for its end (R196). -/
def OBatch.complete (e : OBatch) : Bool := e.closing.any fun c => decide (natLE (c.2.take 4) ≤ e.done)

/-- The context of a batch's window is bound and not resident: its counter is reached through a context miss (R151). -/
def State.closeMisses (s : State) (e : OBatch) : Bool := s.isBound (s.winCtx e.win) && (s.slotOf (s.winCtx e.win)).isNone

/-- Code and effect of a batch whose packets are all done: the counter is advanced or not, the answer sent, the entry freed;
none where the ring holds the advance, or the window's context is not resident (R151, R196). -/
def State.closeBatch (s : State) (b : Nat) (e : OBatch) (h : Pkt) (data : List Byte) : Option State :=
  let w := natLE (data.take 8)
  if s.closeMisses e then none else
  let n := match s.slotOf (s.winCtx e.win) with
    | none => SyncRef.bad
    | some i => s.translate i false false (fld w 47 32)
  match n with
  | .local k =>
    if e.worst = 0 ∨ e.worst = 12 then
      let m : Modif := { port := e.sport, rel := if kRel h then some (kScope h) else none, iid := some e.siid }
      if s.fits k (fld w 63 48) then some (((s.addCtr k (fld w 63 48) m).rnack h e.worst).freeBatch b) else none
    else some ((s.rnack h e.worst).freeBatch b)
  | _ => some ((s.rnack h (worst e.worst 10)).freeBatch b)

end Sys2Proof.Machine
end

