-- ==== Sys2Proof/Machine/PowerOps.lean ====
section
/-! DEFINITION. The power manager (chapter 11): voltages, targets and operating-point sequences of a domain, estimates and
limits, throttling, the steps of a power-state entry and exit, slices switched off and on. -/
namespace Sys2Proof.Machine

/-! ## Voltages and points (R238 to R242) -/

/-- Domain d exists: F, or a present slice. -/
def State.hasDom (s : State) (d : Nat) : Bool := decide (d ≤ s.build.slices)

/-- The domains of the build. -/
def State.domains (s : State) : List Nat := List.range (s.build.slices + 1)

/-- The ageing offset of a domain (R240). -/
def State.ageOf (s : State) (d : Nat) : Nat := s.field oAge (4 * d + 3) (4 * d)

/-- The VID code of point k in domain d (R240). -/
def State.vcode (s : State) (d k : Nat) : Nat := s.field (if d = 0 then oVtabF else oVtabS) (8 * k + 7) (8 * k) + s.ageOf d

/-- The code to which a domain's supply is set for point k: no slice regulator stands below 0x0A while its slice is clocked (R239). -/
def State.pointCode (s : State) (d k : Nat) : Nat := if d = 0 then s.vcode 0 k else max 0x0A (s.vcode d k)

/-- The highest code a domain's supply may take (R240). -/
def State.vlimit (s : State) (d : Nat) : Nat := if d = 0 then s.field oPwrCfg 63 56 else 0x4C

/-- The highest available point; 0 where none is (R240, R321). -/
def State.bestOp (s : State) (d : Nat) : Nat :=
  ((List.range 8).filter fun k => decide (s.vcode d k ≤ s.vlimit d)).foldl max 0

/-- `OPMAX_d`. -/
def State.opMax (s : State) (d : Nat) : Nat := s.field oOpAvail (3 * d + 2) (3 * d)

def State.tgtOf (s : State) (d : Nat) : Nat := s.field oOps (3 * d + 34) (3 * d + 32)

/-- Firmware has group A of the fuses: with it failed, only OP0 is available (R322). -/
def State.fuseOk (s : State) : Bool := !s.bit oIdFuse 0

/-- Shows the highest available points (R240). -/
def State.showAvail (s : State) : State :=
  foldState (fun s d => s.setFld oOpAvail (3 * d + 2) (3 * d) (if s.fuseOk then s.bestOp d else 0)) s.domains s

/-- The highest available points after a change of the ageing offsets: a running point that is no longer available is noted once it
is left (R240). -/
def State.ageAvail (s : State) : State :=
  let s := s.showAvail
  foldState (fun s d => if s.opMax d < s.opOf d then s.modDom d fun q => { q with opLost := true } else s) s.domains s

/-! ## Targets (R246, R251, R254, R256, R257) -/

/-- Domain d is locked. -/
def State.locked (s : State) (d : Nat) : Bool := s.bit oLock d

/-- PREF, FLOOR and CEIL of a domain in the active phase (Table 11.10): 0, 1, 2. -/
def State.phaseField (s : State) (d i : Nat) : Nat :=
  let k := s.field oPwrStat 51 48
  if d < 7 then s.field (oPhaseA k) (9 * d + 3 * i + 2) (9 * d + 3 * i)
  else s.field (oPhaseB k) (9 * (d - 7) + 3 * i + 2) (9 * (d - 7) + 3 * i)

/-- Lowerings on the stack that act on a domain: of a locked one, the emergency lowerings alone (R257). -/
def State.lowerings (s : State) (d : Nat) : Nat :=
  (s.pw.stack.filter fun a => match a with
    | .lower ds em => ds.contains d && (em || !s.locked d)
    | .gate _ => false).length

/-- The preferred point of the active phase, clamped to `OPMAX_d` (R254). -/
def State.pref (s : State) (d : Nat) : Nat := min (s.phaseField d 0) (s.opMax d)

/-- The target point of a domain: its locked point, or its phase's preferred point lowered for idleness or boosted, clamped to
`OPMAX_d`; then the throttling actions of R251, and the response of R246, whose point counts from the running one. After a trip, one point below
the running one (R326). -/
def State.goal (s : State) (d : Nat) : Nat :=
  if s.pw.tripped then s.opOf d - 1
  else
    let q := s.dom d
    let b :=
      if s.locked d then s.field oLock 18 16
      else if q.lowered ≠ 0 then max (s.phaseField d 1) (s.pref d - q.lowered)
      else min (s.phaseField d 2) (s.pref d + q.boosted)
    let b := min b (s.opMax d) - s.lowerings d
    match q.droopCap with
    | some c => min b c
    | none => b

/-- Sets a domain's target; a change after cycle 4,078 misses this turn's boundary (R241). A lowering after a trip is an emergency
action (R326). -/
def State.aimAt (s : State) (d g : Nat) : State :=
  if g = s.tgtOf d then s
  else
    let s := if s.pw.tripped ∧ g < s.opOf d then s.setBit oNote 6 else s
    (s.setFld oOps (3 * d + 34) (3 * d + 32) g).modDom d fun q => { q with late := decide (4079 ≤ s.cyc) }

/-- CC1 brings the targets up to date (`TGT_d`). -/
def State.retarget (s : State) : State :=
  if s.coreRuns 1 then foldState (fun s d => s.aimAt d (s.goal d)) s.domains s else s

/-! ## Sequences (R239, R241, R242, R245) -/

/-- A voltage step of F: the handshake begins (R238). -/
def State.askVid (s : State) (v : Nat) : State :=
  let s := s.modDom 0 fun q => { q with setting := some (v, 0) }
  { s with pins := { s.pins with vfVid := v, vfVreq := true }, pw := { s.pw with vfSince := s.turn } }

/-- The handshake is over: request and `VF_READY` are low (R314). -/
def State.vidFree (s : State) : Bool := !s.pins.vfVreq && !s.pins.vfReady

/-- A voltage step of F once no other is under way, the handshake before it is over, and no droop pauses it (R245). -/
def State.askWhenFree (s : State) (v : Nat) : State :=
  if (s.dom 0).setting.isNone ∧ s.vidFree ∧ !(s.dom 0).droop then s.askVid v else s

/-- The rail of F stands, confirmed, at a code. -/
def State.vidAt (s : State) (v : Nat) : Bool := (s.dom 0).settled == v && s.pins.vfVid == v

/-- The voltage at which a rail is taken to stand: after a timeout of `VF_READY`, the higher of the old and the new one (R238). -/
def State.railCode (s : State) (d : Nat) : Nat :=
  if d = 0 ∧ s.pw.vfStuck then max (s.dom 0).settled s.pins.vfVid else (s.dom d).settled

/-- The code of the running point. -/
def State.runCode (s : State) (d : Nat) : Nat := s.pointCode d (s.opOf d)

/-- The sequences of points and voltages go on: CC1 runs, and no entry has stopped the clocks (R242, R262, R316 U8). -/
def State.sequences (s : State) : Bool :=
  s.coreRuns 1 && match s.pw.entry with
    | some e => decide (e.target = 1 ∨ e.step ≤ 4)
    | none => true

/-- The voltage that firmware asks for next, within the limit (R240, R242): for a raise the target's, once more than that is not there
already; at the target its own; before a lowering none, unless the running point needs more than it has. -/
def State.wantedCode (s : State) (d : Nat) : Option Nat :=
  let o := s.opOf d
  let t := min (s.tgtOf d) (s.opMax d)
  let v := min (s.pointCode d (max o t)) (s.vlimit d)
  if v = (s.dom d).settled ∨ (t ≠ o ∧ v < (s.dom d).settled) then none else some v

/-- Issues the next voltage step of a domain, unless droop pauses it or one is under way. One below the running point's voltage is not
performed (R242). `due` is the turn from which a slice's step counts as settled. -/
def State.seqVolt (s : State) (d due : Nat) : State :=
  let q := s.dom d
  if q.droop ∨ q.setting.isSome ∨ !s.sequences then s
  else match s.wantedCode d with
  | none => s
  | some v =>
    if v < s.runCode d then s.setBit oNote 2
    else if d = 0 then (if s.vidFree then s.askVid v else s)
    else s.modDom d fun q => { q with setting := some (v, due) }

/-- A slice's voltage step has settled (R239). -/
def State.settleVolt (s : State) (d : Nat) : State :=
  match (s.dom d).setting with
  | some (v, t) => if d ≠ 0 ∧ t ≤ s.turn then s.modDom d fun q => { q with settled := v, setting := none } else s
  | none => s

/-- Domain d switches to point k; its idle PLL parks again (R241). -/
def State.switchOp (s : State) (d k : Nat) : State :=
  let s := s.setFld oOps (3 * d + 2) (3 * d) k
  let s := if (s.dom d).opLost ∧ k ≤ s.opMax d then s.setBit oNote 10 else s
  s.modDom d fun q => { q with relock := none, pllWait := 1, opLost := q.opLost && !decide (k ≤ s.opMax d) }

/-- A raise may be applied at this boundary (R238, R242, R245). -/
def State.mayRaise (s : State) (d k : Nat) : Bool :=
  let q := s.dom d
  decide (s.pointCode d k ≤ q.settled) && !q.droop && !q.droopLate && !(d == 0 && s.pw.vfStuck)

/-- The PLLs of a domain at a turn boundary: a lowering by one point on the parked PLL, another change on the relocked one,
parking, relocking (R241). -/
def State.seqPll (s : State) (d : Nat) : State :=
  let q := s.dom d
  let o := s.opOf d
  let t := s.tgtOf d
  let aim (k : Option Nat) (s : State) : State := s.modDom d fun q => { q with relock := k, pllWait := 1 }
  if q.pllWait ≠ 0 then s.modDom d fun q => { q with pllWait := q.pllWait - 1 }
  else match q.relock with
    | some k =>
      if k ≠ t ∨ t = o then aim (if t = o ∨ t + 1 = o then none else some t) s
      else if t < o ∨ s.mayRaise d t then s.switchOp d t else s
    | none =>
      if t = o then s
      else if t + 1 = o then (if q.late then s else s.switchOp d t)
      else if q.droop ∧ o < t then s else aim (some t) s

/-! ## Estimates and limits (R247 to R249, R254) -/

/-- The quotient of an estimate in whole units (log 11). -/
def quotient (num den : Nat) : Nat :=
  if den = 0 then 0 else num / den + (if num % den ≠ 0 ∧ Config.roundUp num den then 1 else 0)

/-- A domain's activity of the turn as a fraction: line accesses of the ports for F, grants for a slice (R254). -/
def State.activity (s : State) (d : Nat) : Nat × Nat :=
  if d = 0 then (((List.range 13).map fun p => (s.port p).turnUse).foldl (· + ·) 0, 4096 * 236)
  else
    let gs := [4 * (d - 1), 4 * (d - 1) + 1, 4 * (d - 1) + 2, 4 * (d - 1) + 3]
    ((gs.map fun g => (s.group g).grants).foldl (· + ·) 0, 64 * (s.group (4 * (d - 1))).grantCount)

/-- Enters a rail's current estimate of the turn, in units of 0.125 A; four are kept. -/
def State.putCur (s : State) (rail i : Nat) : State :=
  { s with pw := { s.pw with cur := tset s.pw.cur rail ((i :: tget [] s.pw.cur rail).take 4) } }

/-- Sum of a rail's last four current estimates. -/
def State.curSum (s : State) (rail : Nat) : Nat := (tget [] s.pw.cur rail).foldl (· + ·) 0

/-- A rail's limit in units of 0.125 A times four turns (R248, R267). -/
def State.curLimit (s : State) (rail : Nat) : Nat :=
  16 * (if rail = 0 then s.field oIlim 9 0 else if rail = 9 then s.field oIlim 25 16 else s.field oIlim 41 32)

/-- The rails of the build. -/
def State.rails (s : State) : List Nat := s.domains ++ [9]

/-- Takes the activity counts of the ending turn (R247). -/
def State.countActs (s : State) : State :=
  foldState (fun t d => t.modDom d fun q => { q with acts := (List.range 24).map (Config.activityCount s.free d) }) s.domains s

/-- The reference and the part estimate of a domain (R247). -/
def State.refOf (s : State) (d : Nat) : Nat := Config.refEstimate s.free d (s.dom d).acts
def State.partOf (s : State) (d : Nat) : Nat := Config.partEstimate s.free d (s.dom d).acts (s.railCode d)

/-- The current of a domain's rail in units of 0.125 A: its part estimate, F's with the control domain's 5 W, over its voltage
(R248). -/
def State.amps (s : State) (d : Nat) : Nat := quotient (200 * (s.partOf d + (if d = 0 then 40 else 0))) (100 + s.railCode d)

/-- Estimates of the ending turn, with each domain's temperature and margin (R247 to R249, R305). -/
def State.estimate (s : State) (temps margins : List Nat) : State :=
  let e := s.countActs
  let t := { e with free := e.free + 1 }
  let t := foldState (fun t d => t.putCur d (e.amps d)) t.domains t
  let t := t.putCur 9 ((t.domains.drop 1).map e.amps |>.foldl (· + ·) 0)
  let t := (t.setFld oEst 15 0 (min ((t.domains.map e.refOf).foldl (· + ·) 40) 65535)).setFld oEst 47 32
    (min ((t.domains.map e.partOf).foldl (· + ·) 40) 65535)
  foldState (fun t d =>
    let a := e.activity d
    let t := ((t.setFld (oDom d) 63 48 (min (e.partOf d) 65535)).setFld (oDom d) 47 32 (min (quotient (t.curSum d) 4) 65535)).setFld
      (oDom d) 15 8 (temps.getD d 0)
    (t.setFld (oDom d) 7 0 (min 255 (quotient (256 * a.1) a.2))).setFld (oAgemon d) 7 0 (margins.getD d 0)) t.domains t

/-- A domain is hot (R249). -/
def State.hot (s : State) (d : Nat) : Bool := decide (s.field oPwrCfg 23 16 < s.field (oDom d) 15 8)

/-- A rail is over its limit (R248). -/
def State.overRail (s : State) (r : Nat) : Bool := decide (s.curLimit r < s.curSum r)

/-- The reference total is above a bound in W. -/
def State.refAbove (s : State) (w : Nat) : Bool := decide (8 * w < s.field oEst 15 0)

/-! ## Throttling (R250, R251) -/

/-- Gating level of a class. -/
def State.gateOf (s : State) (c : Nat) : Nat := s.field oGate (4 * c + 3) (4 * c)
def maxGate (c : Nat) : Nat := if c = 5 then 8 else 6

/-- The classes in throttle order: the highest position first. -/
def State.throttleOrder (s : State) : List Nat :=
  (List.range 6).reverse.filterMap fun pos => (List.range 6).find? fun c => s.field oCap (3 * c + 10) (3 * c + 8) == pos

/-- A lowering of a domain waits for a PLL to park: the idle PLL is not locked, or an earlier lowering is to use it (R241). -/
def State.pllBusy (s : State) (d : Nat) : Bool := (s.dom d).pllWait != 0 || decide (s.tgtOf d < s.opOf d)

/-- What one candidate action of phases a, b or c comes to. -/
inductive Choice where
  | limit
  | waits
  | take (a : Throttle)
  deriving DecidableEq, Repr

/-- Gating a class one level more. -/
def State.gateChoice (s : State) (c : Nat) : Choice := if s.gateOf c < maxGate c then .take (.gate c) else .limit

/-- Lowering domains one point: those above OP0. -/
def State.lowerChoice (s : State) (ds : List Nat) (em : Bool) : Choice :=
  let ds := ds.filter fun d => decide (0 < s.goal d)
  if ds = [] then .limit else if ds.any s.pllBusy then .waits else .take (.lower ds em)

/-- The candidate actions in the order of phases a, b, c. -/
def State.choices (s : State) : List Choice :=
  let ord := s.throttleOrder
  let slices (lk : Bool) : List Nat := (s.domains.drop 1).filter fun d => s.locked d == lk
  let f (lk : Bool) : List Nat := if s.locked 0 = lk then [0] else []
  (ord.filter fun c => decide (2 ≤ c)).map s.gateChoice
  ++ (ord.filterMap fun c => if c = 3 then some (s.lowerChoice (slices false) false)
      else if c = 0 then some (s.lowerChoice (f false) false) else none)
  ++ (ord.filterMap fun c => if c = 1 then some (s.lowerChoice (slices true) true)
      else if c = 0 then some (s.lowerChoice (f true) true) else none)

/-- The first action to take. -/
def firstTake : List Choice → Option Throttle
  | [] => none
  | .take a :: _ => some a
  | _ :: l => firstTake l

/-- Takes an action and pushes it on the stack. -/
def State.takeAction (s : State) (a : Throttle) : State :=
  let s := match a with
    | .gate c => s.setFld oGate (4 * c + 3) (4 * c) (s.gateOf c + 1)
    | .lower _ em => if em then s.setBit oNote 6 else s
  { s with pw := { s.pw with stack := a :: s.pw.stack } }

/-- Notes a hot domain and a rail over its limit (R248, R249). -/
def State.noteOver (s : State) : State :=
  let s := if s.domains.any s.hot then s.setBit oNote 5 else s
  if s.rails.any s.overRail then s.setBit oNote 4 else s

/-- CC1's decision of a turn boundary, an undoing apart (R251). -/
def State.throttle (s : State) : State :=
  let hots := s.domains.any s.hot
  let rail := s.rails.any s.overRail
  if s.pw.tripped then s
  else
    let cap := s.field oCap 7 0
    if s.refAbove cap ∨ rail ∨ hots then
      let s := { s with pw := { s.pw with calm := 0 } }
      let cs := s.choices
      match firstTake cs with
      | some a => s.takeAction a
      | none => if cs.contains .waits then s else s.setBit oNote 7
    else
      let low := decide (s.field oEst 15 0 < 8 * (cap - s.field oPwrCfg 15 8))
      { s with pw := { s.pw with calm := if low then s.pw.calm + 1 else 0 } }

/-- Undoes the top of the stack (R251). -/
def State.undoAction (s : State) : State :=
  match s.pw.stack with
  | [] => s
  | a :: rest =>
    let s := match a with
      | .gate c => s.setFld oGate (4 * c + 3) (4 * c) (s.gateOf c - 1)
      | .lower _ _ => s
    { s with pw := { s.pw with stack := rest, calm := 0 } }

/-! ## Lowering and boost (R254) -/

/-- The three conditions of a boost hold. -/
def State.boostOk (s : State) : Bool :=
  s.pw.stack.isEmpty && decide (10 * s.field oEst 15 0 < 72 * s.field oCap 7 0)
  && s.domains.all fun d => decide (s.field (oDom d) 15 8 + 10 ≤ s.field oPwrCfg 23 16)

/-- Counts a turn's activity and calm for every unlocked domain: a return to PREF from lowering above one half, an end of boost
when a condition fails. `acts` are the activities of the ending turn. -/
def State.countIdle (s : State) (acts : List (Nat × Nat)) : State :=
  let ok := s.boostOk
  foldState (fun s d =>
    if s.locked d then s
    else
      let a := acts.getD d (0, 1)
      let low := decide (8 * a.1 < a.2)
      let high := decide (a.2 < 2 * a.1)
      s.modDom d fun q =>
        { q with lowTurns := if low then q.lowTurns + 1 else 0, lowered := if high then 0 else q.lowered,
                 boostTurns := if ok then q.boostTurns + 1 else 0, boosted := if ok then q.boosted else 0 }) s.domains s

/-! ## Slices off and on (R41, R262, R315) -/

/-- A slice's arrays lose power: nothing in them is listed any more. -/
def State.powerOff (s : State) (sl : Nat) : State :=
  let lo := arrBase (66 * sl) 0
  let hi := arrBase (66 * sl + 66) 0
  let s := { s with mem := tclear s.mem lo hi, save := tclear s.save (arrBase sl 0) (arrBase sl 128) }
  s.modSlice sl fun q => { q with powered := false, shaving := none }

/-- A slice is powered up from off: every line blank, its passes counted afresh. -/
def State.powerOn (s : State) (sl : Nat) : State :=
  let s := { s with powerUps := tset s.powerUps sl (tget 0 s.powerUps sl + 1) }
  (s.setFld (oBtSl sl) 31 0 0).modSlice sl fun q => { q with powered := true }

/-! ## Ramp (R253) -/

/-- Every ramp allowance starts at r again, where the limit applies. -/
def State.resetRamps (s : State) : State :=
  foldState (fun s p => s.setFld (oRampStat p) 54 48 (if s.bit (oRamp p) 3 then s.rampStep p else 64)) (List.range 12) s

/-- The allowances of the next turn. -/
def State.nextRamps (s : State) : State :=
  foldState (fun s p =>
    let r := s.rampStep p
    let u := ceilDiv (s.port p).turnUse (64 * fullRate p)
    (s.setFld (oRampStat p) 54 48 (if s.bit (oRamp p) 3 then min 64 (max r (u + r)) else 64)).modPort p fun q =>
      { q with turnUse := 0, frameUse := 0 }) (List.range 12) s

/-! ## Power states (R259 to R265) -/

/-- Present groups frozen by firmware (step E3). -/
def State.freezeAll (s : State) : State := s.setReg oFrzFw (BitVec.ofNat 64 (2 ^ s.nGroups - 1))

/-- A region has a line in a slice. Its lines run over all banks in turn: the first two units show every slice of it, and a GROUP
region has a share in every group. -/
def State.rgnTouches (s : State) (n sl : Nat) : Bool :=
  s.rgnGroup n || (List.range (512 * min 2 (s.rgnSize n))).any fun (i : Nat) => sliceOf (s.place n (512 * s.rgnBase n + i)).1 == sl

/-- A slice that R35 retains: it holds a line of a region of class ALL. -/
def State.mustRetain (s : State) (sl : Nat) : Bool :=
  (List.range 256).any fun n => s.rgnValid n && s.rgnRetain n == 1 && decide (sl < s.build.slices) && s.rgnTouches n sl

/-- The slices kept at retention in PS2 (E4). -/
def State.retainMask (s : State) (mask : Nat) : Nat :=
  ((List.range s.build.slices).filter fun sl => bitAt mask sl || s.mustRetain sl).foldl (fun m sl => m + 2 ^ sl) 0

/-- The power state is entered (E6). -/
def State.enterState (s : State) (target : Nat) : State :=
  ((s.setEntry none).setFld oPwrStat 63 62 target).setBit oNote 8

/-- The end of every exit: PS0, the freeze cleared, the ramps at r, the idle count at 0 (R260, R264). -/
def State.backToPs0 (s : State) : State :=
  let s := ((s.thaw.setEntry none).setFld oPwrStat 63 62 0).setBit oNote 9
  let s := s.resetRamps.setFld oIdle 31 0 0
  { s with pw := { s.pw with wakeLatched := false } }

/-- Units of a twin region with a line in a slice that was off (R265): every unit of a SPREAD region; in a GROUP region, those
with a line in one of the slice's groups. -/
def State.lostUnits (s : State) (n : Nat) (off : List Nat) : List Nat :=
  if s.rgnGroup n then
    (List.range (s.rgnSize n)).filterMap fun (u : Nat) =>
      let b := s.rgnBase n + u
      if (List.range 512).any fun (i : Nat) => off.contains (sliceOf (s.place n (512 * b + i)).1) then some b else none
  else (List.range (s.rgnSize n)).map (s.rgnBase n + ·)

/-- Twin regions after an exit from PS2: lost units are dirty, and the pair is DOWN (R265). -/
def State.twinAfterPs2 (s : State) (off : List Nat) : State :=
  let us := ((List.range 256).filter fun n => s.rgnValid n && s.rgnTwin n).map fun n => s.lostUnits n off
  let us := us.flatten
  if off = [] ∨ us = [] then s
  else
    let s := foldState (fun s u => s.markDirty (512 * u)) us s
    if s.twin = 0 then s else s.goDown.sendControl s.peer 0 (bytesLE 8 (msgDown + 256))

/-- Steps X2 and X3 of Table 11.9. -/
def State.finishPs2 (s : State) : State :=
  let off := (List.range s.build.slices).filter fun sl => s.pins.vaOk && !(s.slice sl).powered
  let s := foldState (fun s sl => (s.powerOn sl).testSparesFree sl) off s
  let s := foldState (fun s d => s.modDom d fun q => { q with settled := s.runCode d, setting := none }) (s.domains.drop 1) s
  let s := foldState (fun s p => s.modPort p fun q => { q with vpc := [] }) [4, 5, 6, 7] s
  (s.backToPs0).twinAfterPs2 off

/-- An exit begins (R264): from PS1 it is over at once, from PS2 once `VDD_F` is at the running point's code (X1). -/
def State.startExit (s : State) : State :=
  if s.ps = 1 then s.backToPs0
  else if s.ps ≠ 2 ∨ s.pw.entry.isSome then s
  else
    let v := s.runCode 0
    if s.vidAt v then s.finishPs2
    else (s.askWhenFree v).setEntry (some { target := 0, step := 7, cmd := none, retain := 0 })

/-- Step E5: clocks gated; in PS2 slices at retention or off and `VDD_F` at OP0's code; in PS3 everything off. -/
def State.stepE5 (s : State) (e : Entry) : State :=
  if e.target = 1 then s
  else
    let keep := if e.target = 2 then s.pw.retained else 0
    let s := foldState (fun s sl =>
      if bitAt keep sl then s.modDom (1 + sl) fun q => { q with settled := 0, setting := none } else s.powerOff sl) (List.range s.build.slices) s
    let v := s.vcode 0 0
    if e.target = 2 ∧ v ≠ (s.dom 0).settled then s.askWhenFree v else s

/-- A droop pauses an entry before the step that changes voltages (R245). -/
def State.entryPaused (s : State) (e : Entry) : Bool := e.target != 1 && s.domains.any fun d => (s.dom d).droop

/-- Advances an entry by one step where the step's condition holds (Table 11.8): CC1's duty. An exit, once begun, ends by itself. -/
def State.entryStep (s : State) : State :=
  match s.pw.entry with
  | none => s
  | some e =>
    let stepTo (k : Nat) (s : State) : State := s.setEntry (some { e with step := k })
    if e.step ≤ 4 ∧ !s.coreRuns 1 then s else
    match e.step with
    | 1 => stepTo 2 s
    | 2 => stepTo 3 ((foldState (fun s sl => s.abandonShaving sl .freeze) (List.range s.build.slices) s).freezeAll)
    | 3 => if (List.range s.nGroups).all s.drained then stepTo 4 s else s
    | 4 =>
      if s.entryPaused e then s else
      let s := stepTo 5 { s with pw := { s.pw with retained := s.retainMask e.retain } }
      let s := s.stepE5 e
      (match e.cmd with
      | some n => s.outcome n 0 5
      | none => s)
    | 5 =>
      if e.target ≠ 2 ∨ (s.dom 0).settled = s.vcode 0 0 ∨ s.pw.vfStuck then stepTo 6 s
      else s.askWhenFree (s.vcode 0 0)
    | 6 =>
      let s := s.enterState e.target
      if s.pw.wakeLatched ∧ e.target ≠ 3 then s.startExit else s
    | _ => if s.vidAt (s.runCode 0) then s.finishPs2 else s.askWhenFree (s.runCode 0)

/-- What a wake event does: an entry is abandoned or the event latched; in PS1 and PS2 the exit begins (R261, R263, R264). -/
def State.wake (s : State) : State := if s.pw.entry.isSome then s.abandonEntry else s.startExit

/-- Begins an entry, from PS0 at E1 or from PS1 at E4 (R262). -/
def State.beginEntry (s : State) (target : Nat) (cmd : Option Nat) (retain : Nat) : State :=
  if s.ps = 1 then (s.setFld oPwrStat 63 62 0).setEntry (some { target := target, step := 4, cmd := cmd, retain := retain })
  else s.setEntry (some { target := target, step := 1, cmd := cmd, retain := retain })

end Sys2Proof.Machine
end

