-- ==== Sys2Proof/Machine/Power.lean ====
section
/-! DEFINITION. Commands of power, supplies, droop, temperature, fabric time and ageing (chapter 11, §13.10, §14.4, §14.9). -/
namespace Sys2Proof.Machine

/-! ## Throttling, lowering, boost (R251, R254) -/

/-- The top throttling action is undone after four calm turns (R251). -/
def execThrottleUndo (s : State) : Host.Outcome State Fault Refusal :=
  .next (if 4 ≤ s.pw.calm ∧ s.pw.stack ≠ [] ∧ !s.pw.tripped ∧ s.ps ≤ 1 ∧ s.coreRuns 1 then s.undoAction.retarget else s)

/-- The target of an unlocked domain before droop and throttling act on it (R254). -/
def State.phaseTarget (s : State) (d : Nat) : Nat := s.pref d - (s.dom d).lowered + (s.dom d).boosted

/-- After 16 turns of low activity the target of a domain falls by one point, not below FLOOR (R254). -/
def execIdleLowering (d : Nat) (s : State) : Host.Outcome State Fault Refusal :=
  .next (if s.hasDom d ∧ !s.locked d ∧ s.ps ≤ 1 ∧ s.coreRuns 1 ∧ 16 ≤ (s.dom d).lowTurns ∧ (s.dom d).pllWait = 0 ∧ s.phaseField d 1 < s.phaseTarget d then
      (s.modDom d fun q =>
        { q with lowTurns := 0, lowered := if q.boosted = 0 then q.lowered + 1 else q.lowered, boosted := q.boosted - 1 }).retarget
    else s)

/-- After 16 turns in which a boost is allowed the target rises by one point, not above CEIL (R254). -/
def execBoost (d : Nat) (s : State) : Host.Outcome State Fault Refusal :=
  .next (if s.hasDom d ∧ !s.locked d ∧ s.ps ≤ 1 ∧ s.coreRuns 1 ∧ 16 ≤ (s.dom d).boostTurns ∧ s.phaseTarget d < min (s.phaseField d 2) (s.opMax d) then
      (s.modDom d fun q =>
        { q with boostTurns := 0, boosted := if q.lowered = 0 then q.boosted + 1 else q.boosted, lowered := q.lowered - 1 }).retarget
    else s)

/-! ## Power states (R260 to R264) -/

/-- CC1 serves power-state timers and ageing: READY, running, out of reset. -/
def State.fwReady (s : State) : Bool := s.coreRuns 1 && s.boot == bootReady && !s.pins.poreset

/-- E1 of an entry on a timer: the quiet conditions of R260. -/
def State.quietNow (s : State) : Bool := s.pw.quiet && s.portsQuiet true && s.idleUnits

/-- The quiet-turn count has reached a timer, and entry begins (R260, R262). -/
def execIdleEntry (s : State) : Host.Outcome State Fault Refusal :=
  .next (
    let n := s.field oIdle 31 0
    let t1 := s.field oArm 15 0
    let t2 := s.field oArm 31 16
    if !s.fwReady ∨ s.pw.entry.isSome ∨ !s.quietNow then s
    else if t2 ≠ 0 ∧ t2 ≤ n ∧ s.ps ≤ 1 then s.beginEntry 2 none (s.field oArm 39 32)
    else if t1 ≠ 0 ∧ t1 ≤ n ∧ s.ps = 0 then s.beginEntry 1 none (s.field oArm 39 32)
    else s)

/-- Reads that PS1 and PS2 serve without waking (R261). -/
def exemptRead (off : Nat) : Bool :=
  decide (off < 0x2000) || decide (0x16000 ≤ off ∧ off < 0x17000) || decide (0x19000 ≤ off ∧ off < 0x1B000)

/-- A cause wakes the block. -/
def wakes (c : WakeCause) : Bool :=
  match c with
  | .cpReg false off => !exemptRead off
  | _ => true

/-- A wake event (R261). -/
def execWakeEvent (cause : WakeCause) (s : State) : Host.Outcome State Fault Refusal :=
  .next (if wakes cause ∧ !s.pins.poreset then s.wake else s)

/-! ## `VDD_F` (R238, R314) -/

/-- `VF_READY` is sampled: the step has settled, and the request falls. -/
def execVfReady (s : State) : Host.Outcome State Fault Refusal :=
  .next (if s.pins.vfVreq ∧ !s.pins.vfReady then
      let s := s.modDom 0 fun q => { q with settled := s.pins.vfVid, setting := none }
      { s with pins := { s.pins with vfVreq := false, vfReady := true }, pw := { s.pw with vfStuck := false } }
    else s)

/-- `VF_READY` has not come within `VFTO` turns. -/
def execVfTimeout (s : State) : Host.Outcome State Fault Refusal :=
  .next (if s.pins.vfVreq ∧ !s.pins.vfReady ∧ !s.pw.vfStuck ∧ s.pw.vfSince + max 1 (s.field oPwrCfg 47 32) ≤ s.turn then
      { s.setBit oNote 3 with pw := { s.pw with vfStuck := true } }
    else s)

/-- `VF_READY` falls: the next step may begin. -/
def execVfReadyRelease (s : State) : Host.Outcome State Fault Refusal :=
  .next (if s.pins.vfReady ∧ !s.pins.vfVreq then
      let s := { s with pins := { s.pins with vfReady := false } }
      if s.ps ≤ 1 then s.seqVolt 0 0 else s
    else s)

/-! ## Droop (R243 to R246) -/

/-- The supply of a domain falls below its threshold: its clock is stretched. -/
def execDroop (d : Nat) (s : State) : Host.Outcome State Fault Refusal :=
  .next (if s.hasDom d ∧ !(s.dom d).droop ∧ s.ps = 0 ∧ !s.pins.poreset then
      let s := s.modDom d fun q => { q with droop := true, droopCnt := 0, droopLate := q.droopLate || decide (4080 ≤ s.cyc) }
      { s with pw := { s.pw with varTurn := true } }
    else s)

/-- A droop clears: stretching ends and the paused sequence resumes. -/
def execDroopClear (d : Nat) (s : State) : Host.Outcome State Fault Refusal :=
  .next (if (s.dom d).droop then (s.modDom d fun q => { q with droop := false, droopCnt := 0 }).seqVolt d (s.turn + 2) else s)

/-- A droop has lasted 256 cycles: it is noted, and CC1 lowers the domain's target. The count stops at 257 until the droop
clears. -/
def execDroopLong (d : Nat) (s : State) : Host.Outcome State Fault Refusal :=
  .next (if (s.dom d).droop ∧ (s.dom d).droopCnt = 256 then
      let s := (s.setBit oNote 0).setBit oDroop (48 + d)
      let s := if s.locked d ∧ s.coreRuns 1 then s.setBit oNote 6 else s
      let s := s.modDom d fun q =>
        { q with droopCnt := 257, droopCap := if s.coreRuns 1 then some (s.opOf d - 1) else q.droopCap }
      { s with pw := { s.pw with varTurn := true } }.retarget
    else s)

/-! ## Loss of `VDD_A`, thermal trip (R315, R326) -/

/-- What `VA_LOST` does to a slice: its accesses end, it is held and switched off (log 29). -/
def State.loseSlice (s : State) (sl : Nat) : State :=
  (((s.setBit oRstFault (8 + sl)).failSlice sl).holdSlice sl).powerOff sl

/-- `VA_OK` falls (R315). -/
def execVaLost (s : State) : Host.Outcome State Fault Refusal :=
  .next (if s.pins.poreset ∨ s.ps = 3 then s
    else
      let s := { s.setBit oTrip 40 with pins := { s.pins with vaOk := false } }
      (foldState State.loseSlice (List.range s.build.slices) s).settleAll)

/-- Sensors at 125 °C or above. -/
def State.hotSensors (s : State) : List Nat := s.domains.filter fun d => decide (125 ≤ s.field (oDom d) 15 8)

/-- Two low samples of `THERM_TRIP_N` (R326). -/
def execThermalTrip (s : State) : Host.Outcome State Fault Refusal :=
  .next (if s.pins.poreset ∨ s.pw.tripped then s
    else
      let src := s.hotSensors
      let s := foldState (fun s d => s.setBit oTrip d) src (s.setBit oTrip 63)
      let s := if src = [] then s.setBit oTrip 32 else s
      let s := (((s.setFld oGate 11 8 6).setFld oGate 15 12 6).setFld oGate 19 16 6).setFld oGate 23 20 8
      let s := s.keepFault 9 0 0 0 0
      let s := if s.domains.any fun d => decide (0 < s.opOf d) then s.setBit oNote 6 else s
      { s with pw := { s.pw with tripped := true } }.retarget.wake)

/-! ## Fabric time (R163) -/

/-- `FTIME` decreases, or has stood still for 256 cycles (R312); `ftime` is its value then. -/
def execFtimeBad (ftime : Word) (s : State) : Host.Outcome State Fault Refusal :=
  .next (if s.pins.poreset then s else { s.setBit oSyncErr 3 with ftime := ftime })

/-! ## Ageing (R305, R306) -/

/-- A domain is clocked. -/
def State.clocked (s : State) (d : Nat) : Bool := s.hasDom d && (d == 0 || (s.slice (d - 1)).powered)

/-- CC1 samples the margins, every 60 run minutes. -/
def execAgeingSample (s : State) : Host.Outcome State Fault Refusal :=
  .next (if s.fwReady ∧ s.ps = 0 ∧ s.fw.sampleAt ≤ s.minutes then
      let s := foldState (fun s d =>
        if s.clocked d then s.modDom d fun q => { q with samples := (s.field (oAgemon d) 7 0 :: q.samples).take 8 } else s) s.domains s
      { s with fw := { s.fw with sampleAt := s.fw.sampleAt + 60 } }
    else s)

/-- Insertion of a sample into an ascending list. -/
def insertUp (a : Nat) : List Nat → List Nat
  | [] => [a]
  | b :: l => if a ≤ b then a :: b :: l else b :: insertUp a l

/-- The lower of the two middle samples of eight. -/
def middle (l : List Nat) : Nat := (l.foldr insertUp []).getD 3 0

/-- Re-plans one domain (R306 steps 2 to 5). -/
def State.replan (first : Bool) (s : State) (d : Nat) : State :=
  let q := s.dom d
  let base := s.field (oAgemon d) 47 40
  if base = 0 ∨ q.samples.length < 8 then s
  else
    let m := middle q.samples
    let l := base - m
    let target := min 8 (l - 1)
    let age := s.ageOf d
    let s :=
      if age < target then
        let v := if first then target else age + 1
        let k := wput (s.reg (oKeep 17)) (4 * d + 3) (4 * d) v
        let s := s.keepWrite 17 k
        let s := s.keepWrite (18 + d) (wput (s.reg (oKeep (18 + d))) 7 0 m)
        ((s.setFld oAge (4 * d + 3) (4 * d) v).setBit oAgemonNote 16)
      else s
    if 8 < l - 1 ∧ s.ageOf d = 8 then s.setBit oAgemonNote d else s

/-- CC1 re-plans the ageing offsets, every 1,440 run minutes, or after `KEEP_LOST` once 8 samples of every domain that takes part
are held. -/
def execAgeingReplan (s : State) : Host.Outcome State Fault Refusal :=
  .next (
    let full := s.domains.all fun d => s.field (oAgemon d) 47 40 == 0 || (s.dom d).samples.length == 8
    if !s.fwReady ∨ !(decide (s.fw.replanAt ≤ s.minutes) || (s.fw.firstPlan && full)) then s
    else
      let raised := s.reg oAge
      let t := foldState (State.replan s.fw.firstPlan) s.domains s
      let t := if t.reg oAge = raised then t
        else t.keepWrite 17 (wput (t.reg (oKeep 17)) 47 40 (min 255 (t.field (oKeep 17) 47 40 + 1)))
      { t.ageAvail with fw := { t.fw with replanAt := if s.fw.replanAt ≤ s.minutes then s.fw.replanAt + 1440 else s.fw.replanAt,
                                           firstPlan := false } }.retarget)

/-! ## The keep domain (R25, R302) -/

/-- A minute with `VDD_F` up: firmware advances `KEEP.RUN.MINUTES`. -/
def execRunMinute (s : State) : Host.Outcome State Fault Refusal :=
  .next (if s.coreRuns 0 ∧ !s.pins.poreset ∧ s.ps ≠ 3 then
      s.keepWrite 27 (wput (s.reg (oKeep 27)) 31 0 (min (s.minutes + 1) (2 ^ 32 - 1)))
    else s)

/-- `VDD_K` fails: the keep registers lose their contents. -/
def execKeepDomainLoss (s : State) : Host.Outcome State Fault Refusal :=
  .next (foldState (fun s i => s.setReg (oKeep i) (Config.keepWord s.free i)) (List.range 64) s |> fun t => { t with free := t.free + 1 })

end Sys2Proof.Machine
end

