-- ==== Sys2Proof/Machine/Requests.lean ====
section
/-! DEFINITION. Partner requests and write data (chapters 3 and 4): one meaning for each opcode of Table 3.7 over the one way a
chuck takes a header in, write-data beats, the hog cutoff, context misses, the `OVERFLOW` event. -/
namespace Sys2Proof.Machine

/-! ## A header on REQ (R59, R66, R67) -/

/-- The header as its row gives it: with the row's opcode, unless it carries an undefined one (log 3). -/
def rowHdr (opc : Nat) (h : Hdr) : Hdr := if opDefined (hOpc h) then withOpc h opc else h

/-- A header with a credit: it consumes the credit, its beats fall due, and it is judged at acceptance unless earlier headers
are held there. -/
def State.takeHeader (s : State) (p : Nat) (h : Hdr) : State :=
  let u := s.uid
  let bs := s.beatShape p h
  let need := bs.1 * bs.2
  let s := (s.fresh).modPort p fun q =>
    { q with reqCrd := q.reqCrd - 1,
             due := if need = 0 then q.due else q.due ++ [{ uid := u, ctx := hCtx h, tag := hTag h, need := need, refused := false }] }
  let w : Held := { uid := u, h := h, beats := [], shape := bs, ended := false }
  if (s.port p).inq = [] then s.takeIn p w else s.modPort p fun q => { q with inq := q.inq ++ [w] }

/-- A header driven on a port: discarded without a credit (R67), else taken in, and what can go goes. -/
def State.receive (s : State) (p : Nat) (h : Hdr) : State :=
  if !s.openPartner p then s
  else if (s.port p).reqCrd = 0 then s.protoErr p 0
  else (s.touch.takeHeader p h).settle p

/-- A `NOP` request (R52): accepted, it is answered `OK` on the acknowledgement lane and has no effect. -/
def execNop (p : Nat) (h : Hdr) (s : State) : Host.Outcome State Fault Refusal :=
  .next (s.receive p (rowHdr opNop h))

/-- An `RD` request (R72, Table 4.5): refused with the first failing check's code, or expanded into rows and lines and issued. -/
def execRd (p : Nat) (h : Hdr) (s : State) : Host.Outcome State Fault Refusal :=
  .next (s.receive p (rowHdr opRd h))

/-- An `RDV` request (R80): its rows are those of the view entry as it stands at acceptance. -/
def execRdv (p : Nat) (h : Hdr) (s : State) : Host.Outcome State Fault Refusal :=
  .next (s.receive p (rowHdr opRdv h))

/-- A `WR` request (R54): its rows are written as its beats arrive (`WRITE_DATA_BEAT`). -/
def execWr (p : Nat) (h : Hdr) (s : State) : Host.Outcome State Fault Refusal :=
  .next (s.receive p (rowHdr opWr h))

/-- A `WRV` request (R80): a write through the view entry as it stands at acceptance. -/
def execWrv (p : Nat) (h : Hdr) (s : State) : Host.Outcome State Fault Refusal :=
  .next (s.receive p (rowHdr opWrv h))

/-- A `WRP` request (R55): words whose `REQ_WEN` bit is 0 leave memory unchanged. -/
def execWrp (p : Nat) (h : Hdr) (s : State) : Host.Outcome State Fault Refusal :=
  .next (s.receive p (rowHdr opWrp h))

/-- An `ACC` request (R167, R178): the replay filter of its tile is found or allocated, and its rows are added into an FP32 region. -/
def execAcc (p : Nat) (h : Hdr) (s : State) : Host.Outcome State Fault Refusal :=
  .next (s.receive p (rowHdr opAcc h))

/-- An `ACCX` request (R171): its addends are converted to FX64 and added modulo 2^64. -/
def execAccx (p : Nat) (h : Hdr) (s : State) : Host.Outcome State Fault Refusal :=
  .next (s.receive p (rowHdr opAccx h))

/-- A `CNT_ADD` request (R146): applied at the sync engine, held at a ring's bound (R156), or routed (R143). -/
def execCntAdd (p : Nat) (h : Hdr) (s : State) : Host.Outcome State Fault Refusal :=
  .next (s.receive p (rowHdr opCntAdd h))

/-- A `CNT_WAIT` request (R62): answered `OK`, or `YIELD` with the wait registered, or held for want of an entry (R149). -/
def execCntWait (p : Nat) (h : Hdr) (s : State) : Host.Outcome State Fault Refusal :=
  .next (s.receive p (rowHdr opCntWait h))

/-- A `CNT_RD` request (R146): answered with the counter's value. -/
def execCntRd (p : Nat) (h : Hdr) (s : State) : Host.Outcome State Fault Refusal :=
  .next (s.receive p (rowHdr opCntRd h))

/-- A `FLG_SET` request (R146): the flag is set, and its former value returned; or routed. -/
def execFlgSet (p : Nat) (h : Hdr) (s : State) : Host.Outcome State Fault Refusal :=
  .next (s.receive p (rowHdr opFlgSet h))

/-- A `FLG_CLR` request (R146): the flag is cleared, and its former value returned; or routed. -/
def execFlgClr (p : Nat) (h : Hdr) (s : State) : Host.Outcome State Fault Refusal :=
  .next (s.receive p (rowHdr opFlgClr h))

/-- A `FLG_WAIT` request (R62): as `CNT_WAIT`, on a flag and `COND`. -/
def execFlgWait (p : Nat) (h : Hdr) (s : State) : Host.Outcome State Fault Refusal :=
  .next (s.receive p (rowHdr opFlgWait h))

/-- A `FLG_TEST` request (R146): answered with the flag. -/
def execFlgTest (p : Nat) (h : Hdr) (s : State) : Host.Outcome State Fault Refusal :=
  .next (s.receive p (rowHdr opFlgTest h))

/-- A `RANGE_OPEN` request (R122, Table 6.4): entered in the lowest free entry of the scoreboard, or answered `RETRY`. -/
def execRangeOpen (p : Nat) (h : Hdr) (s : State) : Host.Outcome State Fault Refusal :=
  .next (s.receive p (rowHdr opRangeOpen h))

/-- A `RANGE_CLOSE` request (R125): answered `BUSY`, or its entry closes once the port's earlier writes are visible (`RANGE_CLOSE_IN_FORCE`). -/
def execRangeClose (p : Nat) (h : Hdr) (s : State) : Host.Outcome State Fault Refusal :=
  .next (s.receive p (rowHdr opRangeClose h))

/-- A `STREAM_OPEN` request (R128): opens a tracker with the view snapshot, depth and gating counter. -/
def execStreamOpen (p : Nat) (h : Hdr) (s : State) : Host.Outcome State Fault Refusal :=
  .next (s.receive p (rowHdr opStreamOpen h))

/-- A `STREAM_STEP` request (R130): asks for the next step, delivered by `STREAM_STEP_DELIVER`. -/
def execStreamStep (p : Nat) (h : Hdr) (s : State) : Host.Outcome State Fault Refusal :=
  .next (s.receive p (rowHdr opStreamStep h))

/-- A `STREAM_CLOSE` request (R128): the prefetch is discarded, a waiting step aborted (log 25), the region released. -/
def execStreamClose (p : Nat) (h : Hdr) (s : State) : Host.Outcome State Fault Refusal :=
  .next (s.receive p (rowHdr opStreamClose h))

/-- An `INVAL` request (R133): in header order, the lines of its shape and their scale lines leave a VP's line cache. -/
def execInval (p : Nat) (h : Hdr) (s : State) : Host.Outcome State Fault Refusal :=
  .next (s.receive p (rowHdr opInval h))

/-- A `FENCE` request (R52): answered once every earlier request of the port has its response and its release is complete. -/
def execFence (p : Nat) (h : Hdr) (s : State) : Host.Outcome State Fault Refusal :=
  .next (s.receive p (rowHdr opFence h))

/-! ## Write-data beats (R54, R59, R67, R349) -/

/-- A beat cut to its port's width. -/
def padBeat (p : Nat) (data : List Byte) : List Byte :=
  data.take (widthW p) ++ List.replicate (widthW p - data.length) 0

/-- Gives a beat to the write it belongs to, accepted or still held at acceptance. -/
def Port.giveBeat (q : Port) (uid : Nat) (b : List Byte × Nat) : Port :=
  { q with inq := q.inq.map fun w => if w.uid == uid then { w with beats := w.beats ++ [b] } else w,
           reqs := q.reqs.map fun r => if r.uid == uid then { r with beats := r.beats ++ [b] } else r }

/-- A beat with a credit: it belongs to the oldest write that lacks beats; a refused write's is discarded, and so is one that
belongs to no write, with `ERR.BEAT` set. The beat of an accepted write returns its credit once it has gone on (R59). -/
def State.takeBeat (s : State) (p : Nat) (data : List Byte) (wen : Nat) : State :=
  let s := s.modPort p fun q => { q with wdCrd := q.wdCrd - 1, lease := 0, beatNow := true }
  match (s.port p).due with
  | [] => (s.retWd p).protoErr p 1
  | d :: ds =>
    let due := if d.need ≤ 1 then ds else { d with need := d.need - 1 } :: ds
    let s := s.modPort p fun q => { q with due := due }
    if d.refused then s.retWd p else s.modPort p fun q => q.giveBeat d.uid (padBeat p data, wen % 2 ^ 256)

/-! ## The hog cutoff (R66, R108) -/

/-- The lease of the port's oldest write that lacks beats has run out. -/
def State.leaseOut (s : State) (p : Nat) : Bool :=
  s.openPartner p && (s.port p).due != [] && s.field (oCfg p) 7 0 != 0
  && decide (64 * s.field (oCfg p) 7 0 ≤ (s.port p).lease)

/-- Ends a write held at acceptance: it leaves acceptance and returns its credit; its `ABORT` goes to the lane at once where no
acknowledgement is before it among the held headers (R66). -/
def State.endHeld (s : State) (p uid : Nat) : State :=
  match (s.port p).inq.find? fun w => w.uid == uid with
  | none => s
  | some w =>
    let s := (s.retReq p).discardBeats p w.beats.length
    if ((s.port p).inq.takeWhile fun x => x.uid != uid).all fun x => onReadLane (hOpc x.h) then
      (s.modPort p fun q => { q with inq := q.inq.filter fun x => x.uid != uid }).refuseReq p uid w.h 13
    else s.modPort p fun q => { q with inq := q.inq.map fun x => if x.uid == uid then { x with ended := true, beats := [] } else x }

/-- The cutoff: `ERR.HOG`, the `HOG` event ahead of every queued one, the write ended with `ABORT` unless it was refused. -/
def State.hog (s : State) (p : Nat) : State :=
  match (s.port p).due with
  | [] => s
  | d :: ds =>
    let s := (s.modPort p fun q => { q with due := ds, lease := 0, hogAt := some s.now,
                                               evtq := ⟨2, d.ctx, d.tag, BitVec.ofNat 64 (d.need % 256), none⟩ :: q.evtq }).setBit (oPErr p) 2
    if d.refused then s
    else match (s.port p).req d.uid with
      | some r => s.cutWrite p r 13
      | none => (s.endHeld p d.uid).admitHeld p ((s.port p).inq.length + 1)

/-- A lease that has run out and that no command has ended: the cutoff acts (R66). -/
def State.hogDue (s : State) (p : Nat) : State := if s.leaseOut p then s.hog p else s

/-- A beat driven on a port. One in the cycle of a hog cutoff's event still belongs to the cut request and is discarded (R66). -/
def State.beat (s : State) (p : Nat) (data : List Byte) (wen : Nat) : State :=
  if !s.openPartner p then s
  else
    let s := s.hogDue p
    if (s.port p).wdCrd = 0 then s.protoErr p 0
    else if (s.port p).hogAt = some s.now then
      ((s.modPort p fun q => { q with wdCrd := q.wdCrd - 1, lease := 0, beatNow := true }).retWd p).settle p
    else (s.takeBeat p data wen).settle p

/-- A beat of write data (R67). -/
def execWriteDataBeat (p : Nat) (data : List Byte) (wen : Nat) (s : State) : Host.Outcome State Fault Refusal :=
  .next (s.beat p data wen)

/-- The lease of a write expires (R66). -/
def execHogCutoff (p : Nat) (s : State) : Host.Outcome State Fault Refusal :=
  .next (if s.leaseOut p then (s.hog p).settle p else s)

/-! ## The OVERFLOW event (R65) -/

/-- `OVERFLOW` is queued once the queue has room after a `READY` was dropped. -/
def execOverflowEvent (p : Nat) (s : State) : Host.Outcome State Fault Refusal :=
  .next (if s.hasPort p ∧ (s.port p).evtOvf ∧ (s.port p).evtq.length < 64 then
      (s.modPort p fun q => { q with evtOvf := false }).event p 1 0 0 0
    else s)

end Sys2Proof.Machine
end

