-- ==== Sys2Proof/Machine/Sync.lean ====
section
/-! DEFINITION. Commands of the sync engine, the scoreboard and the stream trackers (chapters 6 and 7): context misses, releases
of held rows, closes, prefetch, deliveries, counter advances, wakes, ring holds, `DREQ`. -/
namespace Sys2Proof.Machine

/-! ## Context misses (R151, R162) -/

/-- CC3 serves the miss of a partner port's first held header: the context is loaded where it is not there already, and the held
headers go on; a request whose context is no longer bound is refused by its checks; one that finds every resident context pinned is
refused with `RETRY`. Each counts as a miss (R151). -/
def State.serveMiss (s : State) (p : Nat) : State :=
  match (s.port p).inq with
  | [] => s
  | w :: ws =>
    let n := ws.length + 2
    let c := hCtx w.h
    if w.ended then s.admitHeld p n
    else if !s.isBound c ∨ (s.slotOf c).isSome then (s.bump oSyncMiss 31 0 1).admitHeld p n
    else
      let (t, ok) := s.ensureResident c
      if ok then t.admitHeld p n
      else
        let s := t.bump oMissRetry 31 0 1
        ((((s.modPort p fun q => { q with inq := ws }).refuseReq p w.uid w.h 1).retReq p).discardBeats p w.beats.length).admitHeld p n

/-- A complete batch whose counter is of a context that is not resident. -/
def State.missingBatch (s : State) : Option (Nat × OBatch) := s.rp.batches.find? fun e => e.2.complete && s.closeMisses e.2

/-- CC3 serves the miss of a packet held in RP, or of a batch that ends. -/
def State.serveRpMiss (s : State) : State :=
  match s.rp.held with
  | [] =>
    (match s.missingBatch with
     | none => s
     | some (b, e) =>
       let (t, ok) := s.ensureResident (s.winCtx e.win)
       if ok then t
       else match e.closing with
         | some (h, _) =>
           { t.bump oMissRetry 31 0 1 with
             rp := { t.rp with batches := tset t.rp.batches b { e with closing := none } } }.refusePkt h 1
         | none => t)
  | (h, d, a) :: rest =>
    match { s with rp := { s.rp with held := rest } }.takePkt h d a with
    | .miss =>
      let (t, ok) := s.ensureResident (s.winCtx (kWin h))
      if ok then (t.serveHeld (rest.length + 2)).repayLink false
      else
        let s := t.bump oMissRetry 31 0 1
        (({ s with rp := { s.rp with held := rest } }.refusePkt h 1).serveHeld (rest.length + 1)).repayLink false
    | .done t => (t.serveHeld (rest.length + 1)).repayLink false
    | .full => s

/-- CC3 serves a context miss of a port (R151). -/
def execContextMiss (p : Nat) (s : State) : Host.Outcome State Fault Refusal :=
  .next (if !s.coreRuns 3 ∨ !s.open p then s
    else if p = 10 then s.serveRpMiss
    else if s.openPartner p ∧ (s.port p).inq ≠ [] then (s.serveMiss p).settle p
    else s)

/-! ## The scoreboard (R123, R125) -/

/-- Rows of a request that are held and overlap no range any longer are free to issue. -/
def State.freeRows (s : State) (r : Req) : Req :=
  { r with rows := r.rows.map fun w => if w.held && !s.rowHeld w then { w with held := false, wasHeld := true } else w }

/-- Held rows of a port that no range overlaps are released, and their lines issued (R123). -/
def execScoreboardRelease (p : Nat) (s : State) : Host.Outcome State Fault Refusal :=
  .next (if s.openPartner p then (s.modPort p fun q => { q with reqs := q.reqs.map s.freeRows }).settle p else s)

/-- The close of an entry that waits to be in force: its port and request. -/
def State.closeOf (s : State) (i : Nat) : Option (Nat × Req) :=
  (([0, 1, 2, 3, 4, 5, 6, 7, 8, 9] : List Nat).filterMap fun p =>
    ((s.port p).reqs.find? fun r => r.phase == .closing && fld (hSid r.h) 7 0 == i && r.cut.isNone).map fun r => (p, r)).head?

/-- A close comes into force: every write of its port before it is visible at PORT scope, and at `SCOPE` with `REL` (R125,
R126). One whose entry a partition reset has closed meanwhile finds no range (`BUSY`). -/
def execRangeCloseInForce (i : Nat) (s : State) : Host.Outcome State Fault Refusal :=
  .next (match s.closeOf i with
    | some (p, r) =>
      if !s.sbValid i then (s.answer p r.uid 11 0).settle p
      else if ((s.port p).before r.uid).all (Req.visible 0) ∧ (s.port p).released r then
        ((s.sbClose i (hCond r.h) p).answer p r.uid 0 0).settle p
      else s
    | none => s)

/-! ## Run-ahead streams (R129 to R131) -/

/-- Lines a tracker holds or has in flight. -/
def Stream.lineCount (t : Stream) : Nat := (t.fetched.flatten.map fun w => (w.lines.filter fun l => l.st != .todo).length).foldl (· + ·) 0

/-- One line more fits in DEPTH + 1 KiB (R129). -/
def Stream.hasRoom (t : Stream) : Bool := decide (t.lineCount < 8 * (t.depth + 1))

/-- Issues line `j` of row `i` of the step at place `d` where it is absent and fits. -/
def State.fetchLine (p k d i : Nat) (s : State) (j : Nat) : State :=
  let t := (s.port p).stream k
  match ((t.fetched.getD d [])[i]?).bind fun w => w.lines[j]? with
  | none => s
  | some l =>
    if l.st ≠ .todo ∨ !t.hasRoom then s
    else
      (s.sendLine (lineAccess p t.rgn l .read (.stream p k t.gen (t.next + d) i j))).modPort p fun q => q.setStream k
        { t with fetched := lmod t.fetched d fun rows => lmod rows i fun w =>
          { w with lines := lmod w.lines j fun l => { l with st := .sent } } }

/-- Issues the absent lines of row `i` of the step at place `d`, as far as they fit. -/
def State.fetchRow (s : State) (p k d i : Nat) : State :=
  foldState (State.fetchLine p k d i) (List.range ((((s.port p).stream k).fetched.getD d []).getD i (Row.todo 0 [])).lines.length) s

/-- Rows fetched that lack a line, by step place and row. -/
def Stream.lacking (t : Stream) : List (Nat × Nat) :=
  ((List.range t.fetched.length).zip t.fetched).flatMap fun x =>
    ((List.range x.2.length).zip x.2).filterMap fun y => if y.2.lines.any fun l => l.st == .todo then some (x.1, y.1) else none

/-- Place of the next row never fetched: step place and row. -/
def Stream.nextRow (t : Stream) : Option (Nat × Nat) :=
  let d := if t.fetched = [] then 0 else t.fetched.length - 1
  let full (d : Nat) : Bool := decide ((t.steps.getD (t.next + d) []).length ≤ (t.fetched.getD d []).length)
  let d := if full d then d + 1 else d
  if t.next + d < t.steps.length then some (d, (t.fetched.getD d []).length) else none

/-- Fetches lines absent from rows begun, squashed ones among them, then rows not yet begun, in order, until a row overlaps a range or
no line fits. `fuel` bounds the rows. -/
def State.prefetch (s : State) (p k : Nat) : Nat → State
  | 0 => s
  | n + 1 =>
    let t := (s.port p).stream k
    match t.lacking with
    | (d, i) :: _ =>
      if !t.hasRoom ∨ s.rowHeld ((t.fetched.getD d []).getD i (Row.todo 0 [])) then s else (s.fetchRow p k d i).prefetch p k n
    | [] =>
      match t.nextRow with
      | none => s
      | some (d, i) =>
        let a := (t.steps.getD (t.next + d) []).getD i 0
        let w := Row.todo a (s.rowLines t.rgn a t.rowLen)
        if !t.hasRoom ∨ s.rowHeld w then s
        else
          let f := if d < t.fetched.length then lmod t.fetched d fun rows => rows ++ [w] else t.fetched ++ [[w]]
          (((s.modPort p fun q => q.setStream k { t with fetched := f }).fetchRow p k d i)).prefetch p k n

/-- The row a tracker fetches next, of room or squashed, overlaps a range in force: it is held (R123, R129). -/
def State.streamHeld (s : State) (p k : Nat) : Bool :=
  let t := (s.port p).stream k
  t.isOpen && t.hasRoom &&
    match t.lacking with
    | (d, i) :: _ => s.rowHeld ((t.fetched.getD d []).getD i (Row.todo 0 []))
    | [] =>
      match t.nextRow with
      | none => false
      | some (d, i) =>
        let a := (t.steps.getD (t.next + d) []).getD i 0
        s.rowHeld (Row.todo a (s.rowLines t.rgn a t.rowLen))

/-- A tracker fetches lines of undelivered steps while it has room within its depth (R129). -/
def execStreamPrefetch (p k : Nat) (s : State) : Host.Outcome State Fault Refusal :=
  .next (if s.openPartner p ∧ isMp p ∧ ((s.port p).stream k).isOpen then s.prefetch p k (8 * (((s.port p).stream k).depth + 1) + 1)
    else s)

/-- The `STREAM_STEP` of a stream that is delivered next. -/
def Port.stepNext (q : Port) (k : Nat) : Option Req :=
  q.reqs.find? fun r => hOpc r.h == opStreamStep && hStrm r.h == k && r.phase == .active && r.rows.isEmpty && r.ans.isNone
    && r.cut.isNone

/-- The gating counter of a stream. -/
def State.streamGate (s : State) (t : Stream) : Option Nat :=
  match s.slotOf t.ctx with
  | none => none
  | some i => match s.translate i false false t.gate with
    | .local n => some n
    | _ => none

/-- Every line of the next step is present and not squashed. -/
def Stream.ready (t : Stream) : Bool :=
  match t.fetched with
  | [] => false
  | rows :: _ => decide (rows.length = (t.steps.getD t.next []).length) && rows.all (Row.every LineSt.over)

/-- Delivers the next step to its request: its rows leave for the read lane and its lines are freed (R130). -/
def State.deliverStep (s : State) (p k gate : Nat) (r : Req) : State :=
  let t := (s.port p).stream k
  let s := if hAcq r.h then s.observe false gate (s.ctr gate).mod p (hScope r.h) else s
  let s := s.modReq p r.uid fun r =>
    { r with rows := t.fetched.headD [], rgn := t.rgn, rowLen := t.rowLen, dfmt := t.dfmt, phase := .applied }
  s.modPort p fun q => q.setStream k { t with next := t.next + 1, fetched := t.fetched.tail }

/-- A step is delivered once its gating condition holds and all its lines are present (R130). -/
def execStreamStepDeliver (p k : Nat) (s : State) : Host.Outcome State Fault Refusal :=
  .next (if !s.openPartner p ∨ !isMp p then s
    else
      let t := (s.port p).stream k
      match (s.port p).stepNext k, s.streamGate t with
      | some r, some g =>
        if t.ready ∧ hValue r.h ≤ (s.ctr g).val.toNat then (s.deliverStep p k g r).settle p else s
      | _, _ => s)

/-! ## The advance of a FINAL write (R53) -/

/-- A write whose counter advance is due: every line stored and visible, nothing of the port before it at the sync engine. -/
def Port.finalReady (q : Port) (r : Req) : Bool :=
  isWrite (hOpc r.h) && hFinal r.h && !hRmt r.h && !r.advanced && r.ans.isNone && r.cut.isNone && r.allFull && r.allStored
  && r.visible (if hRel r.h then hScope r.h else 0) && q.released r && !q.syncHeld r.uid

/-- Applies a counter advance, or holds it at its ring's bound (R156). -/
def State.advance (s : State) (p : Nat) (r : Req) : State :=
  match s.evalAdd p r r.sync (hFadd r.h) with
  | some t => t.modReq p r.uid fun r => { r with advanced := true, phase := .active }
  | none => (if r.phase = .held then s else s.bump oHold 31 0 1).setPhase p r.uid .held

/-- The counter of a `FINAL` write is advanced by `FADD`, and the write can be acknowledged (R53). -/
def execFinalAdvance (p : Nat) (s : State) : Host.Outcome State Fault Refusal :=
  .next (match (s.port p).reqs.find? (s.port p).finalReady with
    | some r => if s.openPartner p then (s.advance p r).settle p else s
    | none => s)

/-! ## Waits (R62, R149) -/

/-- Waits of a port that are due, of the earliest cycle: the condition has come to hold, the `YIELD` was driven in an earlier cycle
(R62), and no `READY` of it waits. -/
def State.dueWaits (s : State) (p : Nat) : List Waiter :=
  let ws := s.waiters.filter fun w => w.port == p && w.met.isSome && !w.queued && w.told.any fun t => decide (t < s.now)
  let first := ws.foldl (fun (m : Option Nat) w => match m, w.met with
    | none, t => t
    | some a, some b => some (min a b)
    | some a, none => some a) none
  ws.filter fun w => w.met == first

/-- Releases a wait: its acquire observes the last modification, its context has moved. A YIELD-mode wait queues its `READY`, with
which its entry is freed; any other frees its entry with its pulse (R149). -/
def State.releaseWait (s : State) (w : Waiter) : State :=
  let m := if w.isFlag then (s.flg w.phys).mod else (s.ctr w.phys).mod
  let s := match w.acq with
    | some sc => s.observe w.isFlag w.phys m w.port sc
    | none => s
  let s := s.moved w.isFlag w.phys
  if w.yield then s.ready w (BitVec.ofNat 64 (w.sid + b2n w.isFlag * 65536)) else s.freeWait w.uid

/-- Each value of a list once, in order of first appearance. -/
def uniq : List Nat → List Nat
  | [] => []
  | x :: xs => x :: (uniq xs).filter (· != x)

/-- Waits of one cycle are released: one pulse on each wake line, one `READY` each (R62, R63). -/
def execWaitRelease (p : Nat) (s : State) : Host.Outcome State Fault Refusal :=
  .next (
    let ws := s.dueWaits p
    let s := foldState State.releaseWait ws s
    foldState (fun s l => s.drive (.wake p l)) (uniq ((ws.filter fun w => !w.yield).map fun w => w.wline)) s)

/-- The wait of a port held for want of a waiter entry. -/
def Port.heldWait (q : Port) : Option Req :=
  q.reqs.find? fun r => r.phase == .held && isWait (hOpc r.h) && r.cut.isNone

/-- A held wait is answered `OK` when its condition holds, or `YIELD` when an entry frees (R149). -/
def execHeldWaitAnswer (p : Nat) (s : State) : Host.Outcome State Fault Refusal :=
  .next (match (s.port p).heldWait with
    | some r => (s.evalWait p r).settle p
    | none => s)

/-! ## Rings (R156, R158) -/

/-- The operation of a port held at a ring's bound. -/
def Port.ringHeld (q : Port) : Option Req :=
  q.reqs.find? fun r => r.phase == .held && !isWait (hOpc r.h) && r.cut.isNone

/-- The held signal or batch advance of port 10, applied where it fits. -/
def State.applyRpHeld (s : State) : State :=
  match s.timedQ.find? fun t => t.held with
  | some t =>
    (match s.sigPhys t with
     | some n => (match s.applySignal t n with
       | some u => (u.dropSignal t).afterSignal
       | none => s)
     | none => s)
  | none =>
    match s.rp.batches.find? fun e => e.2.ringHeld with
    | some (b, e) =>
      (match e.closing with
       | some (h, d) => (s.closeBatch b e h d).getD s
       | none => s)
    | none => s

/-- A counter operation held at a ring's bound is applied once it fits (R156). -/
def execRingHoldApply (p : Nat) (s : State) : Host.Outcome State Fault Refusal :=
  .next (if p = 10 then s.applyRpHeld
    else match (s.port p).ringHeld with
      | none => s
      | some r =>
        if hOpc r.h = opCntAdd then (s.evalSync p r).settle p else (s.advance p r).settle p)

/-- Base of a ring's burst announcements, and their limit (R158). -/
def State.ringSpan (s : State) (k : Nat) : Nat × Nat :=
  if s.tab (oRing k) 61 61 = 0 then (s.ringP k, s.ringC k + s.tab (oRing k) 31 16) else (s.ringC k, s.ringP k)

/-- The mark m of a ring (R158): a counter that passed it has caught it up. -/
def State.mark (s : State) (k : Nat) : Nat := max (tget 0 s.marks k) (s.ringSpan k).1

/-- A `DREQ` line is pulsed for a burst of room or data (R158). -/
def execDreqPulse (k : Nat) (s : State) : Host.Outcome State Fault Refusal :=
  .next (
    let b := s.tab (oRing k) 15 8
    let m := s.mark k
    let sp := s.ringSpan k
    if s.tab (oRing k) 63 63 = 1 ∧ s.tab (oRing k) 62 62 = 1 ∧ m + b ≤ sp.2 ∧ m - sp.1 ≤ 254 * b then
      { s with marks := tset s.marks k (m + b) }.drive (.dreq (s.tab (oRing k) 60 60) (s.tab (oRing k) 59 56))
    else s)

end Sys2Proof.Machine
end

