-- ==== Sys2Proof/Machine/Clock.lean ====
section
/-! DEFINITION. The end of an FCLK cycle: what the block does by its clock, without a row of the table (log 2): the grant
cycles nobody has run, the counts of cycles, one event per port, one step of a power-state entry. -/
namespace Sys2Proof.Machine

/-- A port's line waits at the input of group g: not parked, at a frozen group, or before the accumulate gate (R106, R107,
R109, R174). A line that the ramp allowance holds has not come so far (R253). -/
def State.heldAt (s : State) (p g : Nat) : Bool :=
  let q := s.group g
  (q.arriving.any fun a => a.agent == p && decide (a.age < q.total))
  || s.rampRoom p && q.waitq.any fun a => a.agent == p && (s.frozen g || a.op.isAdd)

/-- A port's access waits for the ramp allowance (R253). -/
def State.rampHeld (s : State) (p : Nat) : Bool :=
  !s.rampRoom p && (List.range s.nGroups).any fun g => (s.group g).waitq.any fun a => a.agent == p

/-- A row of the port is held at the scoreboard (Table 6.9). -/
def Port.sbHolds (q : Port) : Bool := q.reqs.any fun r => r.rows.any fun w => w.held

/-- A wait of the port is held for want of a waiter entry (R149). -/
def Port.waitHolds (q : Port) : Bool := q.reqs.any fun r => r.phase == .held && isWait (hOpc r.h) && r.cut.isNone

/-- The cycle counts of a port's block: `CONF_BP`, `SB_HOLD`, `RAMP_STAT.HELD` (Tables 5.9, 6.9, 11.6). -/
def State.countPort (s : State) (p : Nat) : State :=
  let s := if (List.range s.nGroups).any (s.heldAt p) then s.bump (oBp p) 47 0 1 else s
  let s := if isPartner p && ((s.port p).sbHolds || ([0, 1, 2, 3].any fun k => s.streamHeld p k)) then s.bump (oSbHold p) 47 0 1 else s
  if p ≤ 11 && s.rampHeld p then s.bump (oRampStat p) 47 0 1 else s

/-- The lease of a port's oldest write that lacks beats (R66). -/
def State.leaseCycle (s : State) (p : Nat) : State :=
  s.modPort p fun q =>
    { q with beatNow := false, lease := if q.due != [] && decide (0 < q.wdCrd) && !q.beatNow then q.lease + 1 else q.lease }

/-- The counts of a droop: every stretched cycle, the length up to 256, and cycles 4,080 to 4,095 (R243, R245, R246). -/
def State.droopCycle (s : State) (d : Nat) : State :=
  if (s.dom d).droop then
    (s.bump oDroop 47 0 1).modDom d fun q =>
      { q with droopCnt := if q.droopCnt < 256 then q.droopCnt + 1 else q.droopCnt, droopLate := q.droopLate || decide (4080 ≤ s.cyc) }
  else s

/-- A group's grant cycle that no command has run: the gate admits, and the group grants (R101, R174). -/
def State.grantDue (s : State) (g : Nat) : State := if s.mayGrant g then (s.gateAdmit g).grantCycle g [] else s

/-- The end of a cycle in PS0. -/
def State.endRunning (s : State) : State :=
  let s := foldState State.hogDue partnerPorts s
  let s := (foldState State.grantDue (List.range s.nGroups) s).settleAll
  let s := foldState State.countPort (List.range 13) s
  let s := if partnerPorts.any fun p => (s.port p).waitHolds then s.bump oWqFull 31 0 1 else s
  let s := foldState State.leaseCycle partnerPorts s
  let s := foldState State.droopCycle s.domains s
  let s := foldState State.sendEvent partnerPorts s
  let s := if s.mirrorsOut < 1024 then s.resyncRead else s
  (s.flushLink false).flushLink true

/-- The end of a cycle: in PS0 the fabric's work, and in any state with a clock a step of an entry or exit under way. -/
def State.endCycle (s : State) : State :=
  let s := if s.awake then s.endRunning else s
  s.entryStep

/-- The next cycle of the turn begins: in cycle 1 voltages follow the points lowered at the boundary (Table 11.3); every 64 cycles a new
frame begins (R253). -/
def State.nextCycle (s : State) : State :=
  let s := { s with cyc := s.cyc + 1 }
  let s := if s.cyc = 1 then foldState (fun s d => s.seqVolt d (s.turn + 2)) s.domains s else s
  if !s.awake then s
  else
    let s := if s.cyc % 64 = 0 then foldState (fun s p => s.modPort p fun q => { q with frameUse := 0 }) (List.range 12) s else s
    s.startCycle

/-- One FCLK cycle without a command (log 2): the cycle ends and the next begins. At the last cycle of a turn time waits for
`TURN_BOUNDARY`; in PS2, whose clock is stopped, only an exit under way goes on; in reset and PS3 nothing happens. -/
def State.tick (s : State) : State :=
  if s.pins.poreset ∨ s.ps = 3 then s
  else if s.ps = 2 then s.entryStep
  else if 4095 ≤ s.cyc then s
  else s.endCycle.nextCycle

end Sys2Proof.Machine
end

