-- ==== Sys2Proof/Machine/Crypto.lean ====
section
/-! DEFINITION. SHA-384 (FIPS 180-4) and ECDSA verification on P-384 (FIPS 186-5), which the boot ROM applies to an image (R271).
The standards are those of Table 0.8; their texts are not in the manual (PRESUMED, log 13). -/
namespace Sys2Proof.Machine

/-! ## SHA-384 -/

/-- n is prime, by trial division. -/
def isPrime (n : Nat) : Bool := decide (2 ≤ n) && (List.range (n - 2)).all fun k => n % (k + 2) != 0

/-- The first 80 primes. -/
def primes80 : List Nat := (List.range 410).filter isPrime

/-- The largest r below 2^bits with r ^ k ≤ n. -/
def rootFloor (k n : Nat) : Nat → Nat → Nat
  | 0, r => r
  | b + 1, r => if (r + 2 ^ b) ^ k ≤ n then rootFloor k n b (r + 2 ^ b) else rootFloor k n b r

/-- The round constants: fractional parts of the cube roots of the first 80 primes. -/
def shaK : List Word := primes80.map fun p => BitVec.ofNat 64 (rootFloor 3 (p * 2 ^ 192) 68 0)

/-- The initial hash value of SHA-384: fractional parts of the square roots of the 9th to 16th primes. -/
def sha384Init : List Word := ((primes80.drop 8).take 8).map fun p => BitVec.ofNat 64 (rootFloor 2 (p * 2 ^ 128) 69 0)

def rotr (x : Word) (n : Nat) : Word := x.rotateRight n
def shr (x : Word) (n : Nat) : Word := x >>> n

def bigSigma0 (x : Word) : Word := rotr x 28 ^^^ rotr x 34 ^^^ rotr x 39
def bigSigma1 (x : Word) : Word := rotr x 14 ^^^ rotr x 18 ^^^ rotr x 41
def smallSigma0 (x : Word) : Word := rotr x 1 ^^^ rotr x 8 ^^^ shr x 7
def smallSigma1 (x : Word) : Word := rotr x 19 ^^^ rotr x 61 ^^^ shr x 6

/-- The message schedule, newest word first: `n` words more. -/
def shaSchedule : Nat → List Word → List Word
  | 0, w => w
  | n + 1, w =>
    shaSchedule n ((smallSigma1 (w.getD 1 0) + w.getD 6 0 + smallSigma0 (w.getD 14 0) + w.getD 15 0) :: w)

/-- One round on the working variables a to h. -/
def shaRound (v : List Word) (kw : Word × Word) : List Word :=
  match v with
  | [a, b, c, d, e, f, g, h] =>
    let t1 := h + bigSigma1 e + ((e &&& f) ^^^ (~~~ e &&& g)) + kw.1 + kw.2
    let t2 := bigSigma0 a + ((a &&& b) ^^^ (a &&& c) ^^^ (b &&& c))
    [t1 + t2, a, b, c, d + t1, e, f, g]
  | _ => v

/-- The 16 words of a block of 128 bytes. -/
def blockWords (bs : List Byte) : List Word := (List.range 16).map fun (i : Nat) => BitVec.ofNat 64 (natBE ((bs.drop (8 * i)).take 8))

/-- The compression of one block. -/
def shaBlock (h : List Word) (bs : List Byte) : List Word :=
  let w := (shaSchedule 64 (blockWords bs).reverse).reverse
  List.zipWith (· + ·) h ((shaK.zip w).foldl shaRound h)

/-- Compresses `n` blocks. -/
def shaBlocks : Nat → List Word → List Byte → List Word
  | 0, h, _ => h
  | n + 1, h, bs => shaBlocks n (shaBlock h (bs.take 128)) (bs.drop 128)

/-- The padded message. -/
def shaPad (bs : List Byte) : List Byte :=
  let l := bs.length
  bs ++ [0x80] ++ List.replicate ((239 - l % 128) % 128) 0 ++ (bytesLE 16 (8 * l)).reverse

/-- The SHA-384 digest as a number, digest byte 0 most significant. -/
def sha384 (bs : List Byte) : Nat :=
  let m := shaPad bs
  ((shaBlocks (m.length / 128) sha384Init m).take 6).foldl (fun a w => a * 2 ^ 64 + w.toNat) 0

/-! ## ECDSA on P-384 -/

def p384 : Nat := 2 ^ 384 - 2 ^ 128 - 2 ^ 96 + 2 ^ 32 - 1
def p384B : Nat :=
  0xB3312FA7E23EE7E4988E056BE3F82D19181D9C6EFE8141120314088F5013875AC656398D8A2ED19D2A85C8EDD3EC2AEF
def p384N : Nat :=
  0xFFFFFFFFFFFFFFFFFFFFFFFFFFFFFFFFFFFFFFFFFFFFFFFFC7634D81F4372DDF581A0DB248B0A77AECEC196ACCC52973
def p384Gx : Nat :=
  0xAA87CA22BE8B05378EB1C71EF320AD746E1D3B628BA79B9859F741E082542A385502F25DBF55296C3A545E3872760AB7
def p384Gy : Nat :=
  0x3617DE4A96262C6F5D9E98BF9292DC29F8F41DBD289A147CE9DA3113B5F0B8C00A60B1CE1D7E819D7A431D7C90EA0E5F

/-- b to the e modulo m, over the low `n` bits of e. -/
def powMod (m : Nat) : Nat → Nat → Nat → Nat
  | 0, _, _ => 1
  | n + 1, b, e =>
    let r := powMod m n (b * b % m) (e / 2)
    if e % 2 = 1 then b * r % m else r

/-- The inverse modulo a prime of 384 bits. -/
def invMod (m a : Nat) : Nat := powMod m 384 (a % m) (m - 2)

/-- A point of the curve; none is the point at infinity. -/
abbrev Point := Option (Nat × Nat)

/-- The third point on a line of slope l through two points with x1 and x2, reflected. -/
def chord (l x1 y1 x2 : Nat) : Nat × Nat :=
  let x := (l * l + 2 * p384 - x1 - x2) % p384
  (x, (l * (x1 + p384 - x) + p384 - y1) % p384)

/-- The sum of two points. -/
def addPoint (a b : Point) : Point :=
  match a, b with
  | none, q => q
  | q, none => q
  | some (x1, y1), some (x2, y2) =>
    if x1 ≠ x2 then some (chord ((y2 + p384 - y1) * invMod p384 (x2 + p384 - x1) % p384) x1 y1 x2)
    else if (y1 + y2) % p384 = 0 then none
    else some (chord ((3 * x1 * x1 + p384 - 3) * invMod p384 (2 * y1) % p384) x1 y1 x1)

/-- k times a point, over the low `n` bits of k. -/
def mulPoint : Nat → Nat → Point → Point
  | 0, _, _ => none
  | n + 1, k, q =>
    let r := mulPoint n (k / 2) (addPoint q q)
    if k % 2 = 1 then addPoint q r else r

/-- A public key: coordinates in the field, on the curve. -/
def onCurve (x y : Nat) : Bool :=
  decide (x < p384 ∧ y < p384) && decide (y * y % p384 = (x * x * x + (p384 - 3) * x + p384B) % p384)

/-- The signature (r, s) verifies under the key (x, y) over a 384-bit digest. -/
def ecdsaOk (x y r s e : Nat) : Bool :=
  onCurve x y && decide (1 ≤ r ∧ r < p384N ∧ 1 ≤ s ∧ s < p384N) &&
  (let w := invMod p384N s
   match addPoint (mulPoint 384 (e * w % p384N) (some (p384Gx, p384Gy))) (mulPoint 384 (r * w % p384N) (some (x, y))) with
   | some (px, _) => px % p384N == r
   | none => false)

end Sys2Proof.Machine
end

