-- ==== Sys2Proof/Machine/Boot.lean ====
section
/-! DEFINITION. Resets, fuses and the boot sequence (§12.1, §13.1, §13.9, §14.5 to §14.7). -/
namespace Sys2Proof.Machine

/-! ## What resets keep (R25, R287, R334) -/

/-- Copies registers from one state into another. -/
def State.keepRegs (t s : State) (os : List Nat) : State := foldState (fun t o => t.setReg o (s.reg o)) os t

/-- The keep registers. -/
def keepOffsets : List Nat := (List.range 64).map fun (i : Nat) => oKeep i

/-- The block of the same build at reset, with what no reset touches: the queue, the keep domain, `FTIME`, what has been
driven, the model's own counters. -/
def State.coldBase (s : State) (iid : Nat) : State :=
  let t := State.ofBuild s.build iid
  { t with pending := s.pending, free := s.free, driven := s.driven, uid := s.uid, ftime := s.ftime, fuse := s.fuse,
           powerUps := s.powerUps }.keepRegs s keepOffsets

/-- Shows a domain's running point and target. -/
def State.putPoint (s : State) (d k t : Nat) : State := (s.setFld oOps (3 * d + 2) (3 * d) k).setFld oOps (3 * d + 34) (3 * d + 32) t

/-- The clocks start after `PORESET_N` (R316 U6): every domain at OP0, F on 0.80 V, each slice on its own OP0 code; a higher OP0 code of
F is asked for by a handshake. The targets are those of the reset (log 14). -/
def State.startPoints (s : State) : State :=
  let s := foldState (fun s d =>
    (s.putPoint d 0 (min 5 (s.opMax d))).modDom d fun q => { q with settled := if d = 0 then 0x3C else s.pointCode d 0 }) s.domains s
  if 0x3C < s.vcode 0 0 then s.askVid (s.vcode 0 0) else s

/-- A domain through a warm reset (log 14): its rail stays as it stands, but a slice that was off or at retention starts on its OP0
code; it runs the point of the reset, or the highest below that its rail carries; after a trip, the point it ran (R242, R326). -/
def State.carryPoint (s t : State) (d : Nat) : State :=
  let v := if d ≠ 0 && (s.ps == 2 || !(s.slice (d - 1)).powered) then s.pointCode d 0 else (s.dom d).settled
  let top := if s.pw.tripped then s.opOf d else min 5 (t.opMax d)
  let k := ((List.range (top + 1)).filter fun k => decide (s.pointCode d k ≤ v)).foldl max 0
  (t.putPoint d k (if s.pw.tripped then s.tgtOf d else min 5 (t.opMax d))).modDom d fun q =>
    { q with settled := v, setting := if d = 0 then (s.dom 0).setting else none }

/-- What a warm reset leaves on the pins: a handshake of `VDD_F` under way (R238), and `THERM_TRIP_N` as the sensors have it (R325). -/
def State.carryPins (s t : State) : State :=
  { t with pins := { t.pins with vfVid := s.pins.vfVid, vfVreq := s.pins.vfVreq, vfReady := s.pins.vfReady, thermTrip := s.pins.thermTrip },
           pw := { t.pw with vfStuck := s.pw.vfStuck } }

/-- `PORESET_N` is asserted: the whole block is held in cold reset (R8). -/
def execPoresetAssert (s : State) : Host.Outcome State Fault Refusal :=
  .next (let t := s.coldBase s.iid
    { t with pins := { t.pins with poreset := true }, wrap := s.wrap })

/-! ## Fuses (R320 to R322) -/

/-- A word of the fuse macro; 0 where it is blank. -/
def fuseWord (f : List (Nat × Nat)) (a : Nat) : Nat := ((f.find? fun e => e.1 == a).map fun e => e.2 % 2 ^ 32).getD 0

/-- Bytes of fuse words, least significant first. -/
def fuseBytes (f : List (Nat × Nat)) (as : List Nat) : List Byte := as.flatMap fun a => bytesLE 4 (fuseWord f a)

/-- Group A is good. -/
def groupAOk (f : List (Nat × Nat)) : Bool :=
  fuseWord f 0 / 2 ^ 16 == 0x4655 && crc32c (fuseBytes f (List.range 36)) == fuseWord f 0x24

/-- Addresses of the repair entries. -/
def repairWords (f : List (Nat × Nat)) : List Nat := (List.range (fuseWord f 0 % 2 ^ 14)).map (0x100 + ·)

/-- Group B is good. -/
def groupBOk (f : List (Nat × Nat)) : Bool :=
  decide (fuseWord f 0 % 2 ^ 14 ≤ 8192) && crc32c (fuseBytes f (0 :: repairWords f)) == fuseWord f 0x2100

/-- A repair entry that cannot be applied after those applied. -/
def entryBad (slices : Nat) (used : List Nat) (e : Nat) : Bool :=
  decide (66 * slices ≤ fld e 30 21) || (bitAt e 16 && decide (1 < fld e 15 14)) || used.any fun u => fld u 30 14 == fld e 30 14

/-- The entries applied, oldest first, and whether one was not. -/
def applyRepairs (slices : Nat) (es : List Nat) : List Nat × Bool :=
  es.foldl (fun st e =>
    if !bitAt e 31 then st else if entryBad slices st.1 e then (st.1, true) else (st.1 ++ [e], st.2)) ([], false)

/-- Addresses of the fuse words in the order in which they are read (R320). -/
def fuseReads (f : List (Nat × Nat)) : List Nat := List.range 37 ++ repairWords f ++ [0x2100]

/-- Reads every fuse word: `FUSE_ADDR` is driven and `FUSE_RD` raised for each, and low again after the last (R320). -/
def State.readFuses (s : State) (f : List (Nat × Nat)) : State :=
  let as := (fuseReads f).map fun a => a % 2 ^ 14
  { s with driven := as.reverse.map Out.fuseRd ++ s.driven, pins := { s.pins with fuseAddr := 0x2100, fuseRd := false } }

/-- The fuse image is read and loaded (Table 14.6). -/
def State.loadFuses (s : State) (f : List (Nat × Nat)) : State :=
  let s := s.readFuses f
  let a := groupAOk f
  let b := groupBOk f
  let r := if b then applyRepairs s.build.slices ((repairWords f).map (fuseWord f)) else ([], false)
  let vt (i : Nat) : Word :=
    if a then BitVec.ofNat 64 (fuseWord f i + 2 ^ 32 * fuseWord f (i + 1)) else 0x3C3C3C3C3C3C3C3C
  let s := (s.setReg oVtabF (vt 1)).setReg oVtabS (vt 3)
  let s := s.setReg oIdFuse (BitVec.ofNat 64 (r.1.length * 2 ^ 32 + b2n r.2 * 4 + b2n (!b) * 2 + b2n (!a)))
  let s := foldState (fun s d =>
    s.setReg (oAgemon d) (BitVec.ofNat 64 ((if a then fuseWord f (5 + d / 4) / 2 ^ (8 * (d % 4)) % 256 else 0) * 2 ^ 40))) s.domains s
  let key := if a then natBE (fuseBytes f ((List.range 12).map (0x18 + ·))) else 2 ^ 384 - 1
  { s.showAvail with fuse := { words := f.foldr (fun e t => tset t e.1 (e.2 % 2 ^ 32)) [], keyHash := key, repairs := r.1, rdPtr := 0 } }

/-- The release of `PORESET_N` (R316 U5, U6): the strap is sampled, the fuses are read, every line is blank. -/
def execColdReset (instId : Nat) (fuse : List (Nat × Nat)) (s : State) : Host.Outcome State Fault Refusal :=
  .next (
    let t := (s.coldBase (instId % 2 ^ 15)).loadFuses fuse
    (foldState State.powerOn (List.range t.build.slices) t).startPoints)

/-- Registers that a warm reset keeps (R334), the window table's `GEN` and a trip apart. -/
def warmOffsets : List Nat := keepOffsets ++ [oIdFuse, oVtabF, oVtabS]

/-- A warm reset (R287, R317): lines, identity, `GEN` and a trip stay (log 33). -/
def State.warm (s : State) : State :=
  let s := foldState (fun s sl => s.abandonShaving sl .freeze) (List.range s.build.slices) s
  let t := (s.coldBase s.iid).keepRegs s warmOffsets
  let t := { t with mem := s.mem, fuse := s.fuse, fw := { t.fw with cold := false } }
  let t := foldState (fun t w => if s.field (oWin w) 47 32 = 0 then t else t.setFld (oWin w) 47 32 (s.field (oWin w) 47 32)) (List.range 256) t
  let t := foldState (fun t d => t.setFld (oAgemon d) 47 40 (s.field (oAgemon d) 47 40)) t.domains t
  let t := if s.pw.tripped then
      let t := (t.setReg oTrip (s.reg oTrip &&& 0x80000000000001FF)).setReg oGate (s.reg oGate)
      { t with pw := { t.pw with tripped := true } }
    else t
  let off := (List.range s.build.slices).filter fun sl => !(s.slice sl).powered
  let t := (foldState State.powerOn off t).showAvail
  s.carryPins (foldState s.carryPoint t.domains t)

/-- `WRESET_N` is asserted and released. -/
def execWarmReset (s : State) : Host.Outcome State Fault Refusal :=
  .next (if s.pins.poreset ∨ s.ps = 3 then s else s.warm)

/-! ## The boot sequence (R268 to R272) -/

/-- Sets `STATE` and `REASON`; READY and FAIL set `CMD.STAT.BOOT` (R276). -/
def State.setBoot (s : State) (state reason : Nat) : State :=
  let s := (s.setFld oBootStat 63 60 state).setFld oBootStat 59 56 reason
  if state = bootReady ∨ state = bootFail then s.setBit oCmdStat 0 else s

/-- The self-test and the clearing are over: load space opens (Table 12.1). They run on the clocks of U6, which begin with F's voltage
there (R316). -/
def execSelfTestDone (s : State) : Host.Outcome State Fault Refusal :=
  .next (if s.boot = 0 ∧ !s.pins.poreset ∧ (s.dom 0).setting.isNone then { s.setBoot bootLoad 0 with fw := { s.fw with mem := [], hdr := [] } } else s)

/-- A write of 1 to `BOOT.CTL.GO` starts CHECK in LOAD and FAIL (R269). -/
def State.go (s : State) : State :=
  if s.boot = bootLoad ∨ s.boot = bootFail then (s.setBoot bootCheck 0).bump oBootStat 15 0 1 else s

/-- The image header, 512 bytes. -/
def State.header (s : State) : List Byte := (List.range 512).map fun i => tget 0 s.fw.hdr i

/-- A little-endian field of the header. -/
def hdrNum (h : List Byte) (o n : Nat) : Nat := natLE ((h.drop o).take n)

/-- Bytes `a` to `b - 1` of the header are 0. -/
def hdrZero (h : List Byte) (a b : Nat) : Bool := ((h.take b).drop a).all (· == 0)

/-- A section: core, offset and length. -/
structure Section where
  core : Nat
  off : Nat
  len : Nat
  deriving DecidableEq, Repr

/-- The sections a header names. -/
def sectionsOf (h : List Byte) : List Section :=
  (List.range (min 8 (hdrNum h 6 2))).map fun (i : Nat) =>
    { core := hdrNum h (0x20 + 16 * i) 1, off := hdrNum h (0x24 + 16 * i) 4, len := hdrNum h (0x28 + 16 * i) 4 }

/-- A section is well formed by itself. -/
def Section.ok (c : Section) : Bool :=
  decide (c.core ≤ 3 ∧ c.off % 8 = 0 ∧ c.len % 8 = 0 ∧ 8 ≤ c.len ∧ c.off + c.len ≤ 2 ^ 18)

/-- Two sections overlap. -/
def Section.meets (a b : Section) : Bool :=
  a.core == b.core && decide (a.off < b.off + b.len ∧ b.off < a.off + a.len)

/-- No two of a list's sections overlap. -/
def sectionsApart : List Section → Bool
  | [] => true
  | c :: cs => cs.all (fun d => !c.meets d) && sectionsApart cs

/-- A byte of a core's memory lies in a section. -/
def Section.covers (c : Section) (core off : Nat) : Bool := c.core == core && decide (c.off ≤ off ∧ off < c.off + c.len)

/-- Check 2 of Table 12.3. -/
def layoutOk (h : List Byte) : Bool :=
  let n := hdrNum h 6 2
  let cs := sectionsOf h
  let sum := cs.foldl (fun a c => a + c.len) 512
  decide (1 ≤ n ∧ n ≤ 8) && cs.all Section.ok && sectionsApart cs
  && (List.range 4).all (fun k => cs.any fun c => c.covers k (hdrNum h (0xA0 + 4 * k) 4))
  && hdrNum h 8 4 == sum && decide (sum ≤ 786432)
  && hdrZero h 0x16 0x18 && hdrZero h 0xB0 0x100 && hdrZero h 0x1C0 0x200 && hdrZero h (0x20 + 16 * n) 0xA0
  && (List.range n).all fun (i : Nat) => hdrZero h (0x21 + 16 * i) (0x24 + 16 * i) && hdrZero h (0x2C + 16 * i) (0x30 + 16 * i)

/-- The signed message: header bytes 0x000 to 0x15F, then each section as it lies in core memory. -/
def State.signed (s : State) (h : List Byte) : List Byte :=
  h.take 0x160 ++ (sectionsOf h).flatMap fun c => (List.range c.len).map fun (i : Nat) => tget 0 s.fw.mem (2 ^ 18 * c.core + c.off + i)

/-- `REASON` of the first check of Table 12.3 that fails; none when all pass. -/
def State.imageReason (s : State) : Option Nat :=
  let h := s.header
  let key := (h.drop 0x100).take 96
  let be (o : Nat) : Nat := natBE ((h.drop o).take 48)
  if hdrNum h 0 4 ≠ 0x53454345 ∨ hdrNum h 4 2 ≠ 1 then some 1
  else if !layoutOk h then some 2
  else if s.fuse.keyHash = 0 ∨ s.fuse.keyHash = 2 ^ 384 - 1 then some 3
  else if sha384 key ≠ s.fuse.keyHash then some 4
  else if !ecdsaOk (be 0x100) (be 0x130) (be 0x160) (be 0x190) (sha384 (s.signed h)) then some 5
  else if hdrNum h 0xE 2 ≠ 0x7A03 ∨ hdrNum h 0xD 1 ≠ 3 ∨ 1 < hdrNum h 0xC 1 then some 6
  else none

/-- The keep domain's header is as Table 13.7 has it. -/
def State.keepValid (s : State) : Bool := s.field (oKeep 0) 63 48 == 0x4B50 && s.field (oKeep 0) 47 32 == 1

/-- Firmware loads the ageing offsets first: from INIT on it raises every domain to phase 0, voltage first (R240, R316 U8). -/
def State.loadAge (s : State) : State :=
  (if s.keepValid then (s.setReg oAge (s.reg (oKeep 17) &&& 0xFFFFFFFFF)).showAvail else s).retarget

/-- The cores start on a checked image (R271). -/
def State.startCores (s : State) : State :=
  let h := s.header
  let cs := sectionsOf h
  { s.setBoot bootInit 0 with fw := { s.fw with
      mem := s.fw.mem.filter fun e => cs.any fun c => c.covers (e.1 / 2 ^ 18) (e.1 % 2 ^ 18),
      digest := sha384 (s.signed h), entry := (List.range 4).map fun (k : Nat) => hdrNum h (0xA0 + 4 * k) 4,
      verMajor := hdrNum h 0x10 2, verMinor := hdrNum h 0x12 2, verPatch := hdrNum h 0x14 2, build := hdrNum h 0x18 8 } }

/-- The boot ROM's checks end (R271). -/
def execImageCheck (s : State) : Host.Outcome State Fault Refusal :=
  .next (if s.boot ≠ bootCheck ∨ s.pins.poreset then s
    else match s.imageReason with
      | some r => s.setBoot bootFail r
      | none => s.startCores.loadAge)

/-! ## INIT (R272 step 4, R304) -/

/-- The keep domain is found empty: it is cleared, its header written, the loss noted. -/
def State.clearKeep (s : State) : State :=
  let s := foldState (fun s i => s.setReg (oKeep i) 0) (List.range 64) s
  (s.setReg (oKeep 0) 0x4B50000100000000).setBit oRstFault 25

/-- A slice's remap, spares and retired positions from the keep domain. -/
def State.loadRemap (s : State) (sl : Nat) : State :=
  let dead := s.reg (oKeep (1 + 2 * sl))
  let sp := s.reg (oKeep (2 + 2 * sl))
  let s := foldState (fun s (q : Nat) =>
    s.setReg (oRemap (64 * sl + q)) (BitVec.ofNat 64 (q + (if bitAt dead.toNat q then 2 ^ 17 else 0)))) (List.range 64) s
  let one (pos hi q : Nat) (s : State) : State :=
    let st := wfld sp hi (hi - 1)
    if st = 1 then
      (((s.setSpare sl pos 1).setSpareLb sl pos (64 * sl + q)).setFld (oRemap (64 * sl + q)) 6 0 pos).setFld (oRetired sl) q q 1
    else s.setSpare sl pos (if st = 3 then 3 else 0)
  one 65 61 (wfld sp 37 32) (one 64 63 (wfld sp 45 40) ((s.setReg (oSpare sl) 0).setReg (oRetired sl) 0))

/-- A slice's trims from the keep domain. -/
def State.loadTrims (s : State) (sl : Nat) : State :=
  foldState (fun s (i : Nat) =>
    let pb := 66 * sl + i
    let f := 32 + 4 * (if i < 64 then i / 16 else i - 60)
    s.setFld (oTrim (pb / 16)) (4 * (pb % 16) + 3) (4 * (pb % 16)) (s.field (oKeep (19 + sl)) (f + 3) f)) (List.range 66) s

/-- Firmware loads the tables it keeps (R304), or their defaults. -/
def State.loadKeep (s : State) : State :=
  let slices := List.range s.build.slices
  if s.keepValid then
    (foldState State.loadTrims slices (foldState State.loadRemap slices s)).setReg oAge (s.reg (oKeep 17) &&& 0xFFFFFFFFF)
  else { s.clearKeep with fw := { s.fw with firstPlan := true } }

/-- Commands start at number 0 and the cores serve (R272 step 5, R277). -/
def State.serve (s : State) : State :=
  let s := if s.fw.cold then s.keepWrite 27 (wput (s.reg (oKeep 27)) 63 32 (min (s.field (oKeep 27) 63 32 + 1) (2 ^ 32 - 1))) else s
  let s := ((s.setReg oCmdPosted 0).setReg oCmdDone 0).setBoot bootReady 0
  let s := foldState (fun s sl => s.modSlice sl fun q => { q with stopped := false }) (List.range s.build.slices) s
  let m := s.minutes
  { s.showAvail with fw := { s.fw with running := [], replied := [], cold := false, sampleAt := m + 60, replanAt := m + 1440 } }.retarget

/-- Secen ends INIT, with success or not (Table 12.1). It ends well on all four cores, once the kept tables are loaded and the unused
spares are tested (R222, R272); the operand is what those found (log 15), and none where INIT fails. -/
def execSecenInitDone (tests : Option (List SpareTest)) (s : State) : Host.Outcome State Fault Refusal :=
  .next (if s.boot ≠ bootInit ∨ s.pins.poreset ∨ s.fw.hung ≠ 0 then s
    else match tests with
      | none => s.setBoot bootFail 7
      | some ts =>
        if s.fw.stopped ≠ 0 then s
        else (foldState (fun s sl => s.testSpares ts sl) (List.range s.build.slices) s.loadKeep).serve)

end Sys2Proof.Machine
end

