-- ==== Sys2Proof/Machine/Remote.lean ====
section
/-! DEFINITION. Commands of the RP chuck (§9.1 to §9.6, §7.8): sending, receiving, batches, signals, the link. -/
namespace Sys2Proof.Machine

/-! ## Sending -/

/-- The RP chuck sends the segments, and the closing packet, of the port's next remote write (R185, R193, R194). -/
def execRwriteSend (p : Nat) (s : State) : Host.Outcome State Fault Refusal :=
  .next (match (s.port p).remoteNext with
    | some r => if s.open 10 then ((s.sendAll p r.uid (r.segCount + 1)).finishRemote p r.uid).settle p else s
    | none => s)

/-- The routed operation of a port that goes next (R161). -/
def Port.routedNext (q : Port) : Option Req :=
  q.reqs.find? fun r => isSync (hOpc r.h) && decide (65536 ≤ r.sync) && r.phase == .active && r.ans.isNone && r.cut.isNone

/-- Due delay of a route in nanoseconds (R161, R165). -/
def State.routeDelay (s : State) (route : Nat) : Nat :=
  if s.field oSyncCfg 0 0 = 0 then s.field oSyncCfg 42 32
  else
    let c := fld route 61 59
    if c ≤ 4 then 10 * s.field oDlat (8 * c + 7) (8 * c) else 0

/-- The `RSIG` of a routed operation, under a tag, without its payload. `SCOPE` is carried with `REL` 0 as well (R160). -/
def State.signalHdr (s : State) (p : Nat) (r : Req) (t : Nat) : Pkt :=
  let route := r.sync - 65536
  let o := hOpc r.h
  mkPkt [(0, 2), (4, fld route 62 62), (5, b2n (hRel r.h)), (6, hScope r.h), (8, s.iid), (23, fld route 58 44), (38, p),
    (42, fld route 43 36), (50, fld route 35 20), (69, if o = opCntAdd then 0 else if o = opFlgSet then 1 else 2), (72, t),
    (85, fld route 15 0)]

/-- The packet of a routed operation in the send buffer, not driven yet. -/
def State.heldSignal (s : State) (r : Req) : Option Sent := s.rp.sendBuf.find? fun w => w.sig == some r.uid

/-- Hands a routed operation over to the RP: its packet takes its place in the send buffer, from which its response timeout
counts (R198, R199). -/
def State.handOver (s : State) (p : Nat) (r : Req) : State :=
  let t := s.newPtag
  s.keepSent { ptag := t, h := s.signalHdr p r t, data := [], port := p, uid := none, since := s.turn, retryAt := none,
               sig := some r.uid }

/-- Stamps a routed operation and drives its `RSIG`, or passes it to this instance's own owner checks (R161, R200). -/
def State.sendSignal (s : State) (p : Nat) (r : Req) (w : Sent) : State :=
  let data := bytesLE 8 (s.ftime.toNat + s.routeDelay (r.sync - 65536)) ++ bytesLE 8 (if hOpc r.h = opCntAdd then hValue r.h else 0)
  let s := { s with rp := { s.rp with sendBuf := s.rp.sendBuf.replace w { w with data := data, sig := none } } }
  let s := if kDiid w.h = s.iid then s.arrivePkt w.h data s.ftime else s.send false w.h data
  s.answer p r.uid 0 0

/-- A routed operation whose release is complete is handed over to the RP, and is stamped and sent in a cycle in which its packet
can be driven, or at once to this instance (R161, R199). -/
def execRsigSend (p : Nat) (ftime : Word) (s : State) : Host.Outcome State Fault Refusal :=
  .next (
    let s := s.sample ftime
    match (s.port p).routedNext with
    | some r =>
      if !s.open 10 then s
      else
        let s := if (s.heldSignal r).isNone ∧ s.sendRoom then s.handOver p r else s
        match s.heldSignal r with
        | some w => if kDiid w.h = s.iid ∨ s.canSend false then (s.sendSignal p r w).settle p else s
        | none => s
    | none => s)

/-! ## Receiving (R190 to R196) -/

/-- An inbound data packet (R191). -/
def execRwrite (h : Pkt) (data : List Byte) (s : State) : Host.Outcome State Fault Refusal :=
  .next (s.inbound false h fun s => if kType h = 1 ∧ !kBit4 h then s.arrivePkt h data s.ftime else s)

/-- An inbound closing packet (R196). -/
def execClosingPacket (h : Pkt) (data : List Byte) (s : State) : Host.Outcome State Fault Refusal :=
  .next (s.inbound false h fun s => if kType h = 1 ∧ kBit4 h then s.arrivePkt h data s.ftime else s)

/-- An inbound signal (R162). -/
def execRsig (h : Pkt) (data : List Byte) (ftime : Word) (s : State) : Host.Outcome State Fault Refusal :=
  .next ((s.sample ftime).inbound false h fun s => if kType h = 2 then s.arrivePkt h data s.ftime else s)

/-- A held closing packet's batch is complete: the counter advances or not, and the packet is answered (R196). -/
def execBatchClose (b : Nat) (s : State) : Host.Outcome State Fault Refusal :=
  .next (match tfind s.rp.batches b with
    | none => s
    | some e =>
      match e.closing with
      | none => s
      | some (h, d) =>
        if e.complete ∧ !s.rpHeld ∧ !s.closeMisses e then
          (match s.closeBatch b e h d with
           | some t => t
           | none => { s with rp := { s.rp with batches := tset s.rp.batches b { e with ringHeld := true } } }.bump oHold 31 0 1)
        else s)

/-- A closing packet held `BTO` turns is discarded and answered `ECC` (R196). -/
def execBatchTimeout (b : Nat) (s : State) : Host.Outcome State Fault Refusal :=
  .next (match tfind s.rp.batches b with
    | none => s
    | some e =>
      match e.closing with
      | none => s
      | some (h, _) =>
        if e.since + max 1 (s.field oRmtCfg 47 32) ≤ s.turn then ((s.rnack h 3).freeBatch b).setBit oRmtErr 2 else s)

/-- A queued signal that is due is applied as port 10, or held at its ring's bound (R147, R156, R162). -/
def State.applyDue (s : State) : State :=
  if s.rpHeld then s
  else match s.dueSignals with
    | [] => s
    | t :: _ =>
      match s.sigPhys t with
      | none => (s.dropSignal t).afterSignal
      | some n =>
        match s.applySignal t n with
        | some u => (u.dropSignal t).afterSignal
        | none =>
          { s with timedQ := lmod s.timedQ (s.timedQ.idxOf t) fun x => { x with held := true } }.bump oHold 31 0 1

/-- A remote signal is applied in the first cycle in which `FTIME` reaches its due time (R162). -/
def execRsigApply (ftime : Word) (s : State) : Host.Outcome State Fault Refusal :=
  .next (s.sample ftime).applyDue

/-! ## Answers (R197 to R200) -/

/-- An answer echoes the packet: `PTAG`, `SPORT`, window, generation and batch of it, from its owner (Table 9.5). -/
def Sent.answeredBy (w : Sent) (h : Pkt) : Bool :=
  w.sig.isNone && w.ptag == kPtag h && kDiid w.h == kSiid h && kSport w.h == kSport h && kWin w.h == kWin h && kGen w.h == kGen h
  && (kType w.h == 2 || kBseq w.h == kBseq h)

/-- An answer for a packet of the send buffer; a stale one is ignored. -/
def State.takeRnack (s : State) (h : Pkt) : State :=
  match s.rp.sendBuf.find? fun w => w.answeredBy h with
  | none => s
  | some w =>
    if kCode h = 1 then
      let upd (x : Sent) : Sent := if x.ptag == w.ptag then { x with retryAt := some (s.turn + 1) } else x
      { s with rp := { s.rp with sendBuf := s.rp.sendBuf.map upd } }
    else
      let s := if w.uid.isNone ∧ kCode h ≠ 0 then s.setBit oRmtErr 3 else s
      (s.packetAnswered w (kCode h)).settle w.port

/-- An inbound `RNACK` (R197). -/
def execRnack (h : Pkt) (s : State) : Host.Outcome State Fault Refusal :=
  .next (s.inbound false h fun s => if kType h = 3 then s.takeRnack h else s)

/-- Sends a packet of the send buffer again; one of this instance's own route goes back to its owner checks. -/
def State.resend (s : State) (w : Sent) : State :=
  let upd (x : Sent) : Sent := if x.ptag == w.ptag then { x with retryAt := none } else x
  let s := { s with rp := { s.rp with sendBuf := s.rp.sendBuf.map upd } }.bump oResend 31 0 1
  if kDiid w.h = s.iid then s.arrivePkt w.h w.data s.ftime else s.send false w.h w.data

/-- A packet answered `RETRY` is resent one turn after the answer (R198). -/
def execRetryResend (tag : Nat) (s : State) : Host.Outcome State Fault Refusal :=
  .next (match s.rp.sendBuf.find? fun w => w.ptag == tag with
    | none => s
    | some w =>
      match w.retryAt with
      | some t => if t ≤ s.turn ∧ s.open 10 then s.resend w else s
      | none => s)

/-- A packet is answered at the sender: `ECC` for a write, `SIG_LOST` for a signal, whose operation is acknowledged `OK` all the same
where it has not been (R199, R200). -/
def State.loseSent (s : State) (w : Sent) : State :=
  let s := if w.uid.isNone then s.setBit oRmtErr 4 else s
  let s := match w.sig with
    | some u => s.answer w.port u 0 0
    | none => s
  (s.packetAnswered w 3).settle w.port

/-- A packet unanswered `RTO` turns is answered at the sender (R199). -/
def execResponseTimeout (tag : Nat) (s : State) : Host.Outcome State Fault Refusal :=
  .next (match s.rp.sendBuf.find? fun w => w.ptag == tag with
    | none => s
    | some w =>
      if w.since + max 1 (s.field oRmtCfg 15 0) ≤ s.turn then (s.loseSent w).setBit oRmtErr 1 else s)

/-! ## The link (R49, R198, R199, R207, R209) -/

/-- A lost RP packet: a packet of the send buffer is resent, an `RNACK` goes out again as its header says (R192, R198). -/
def State.lostRp (s : State) (h : Pkt) : State :=
  if kType h = 3 then s.send false h []
  else match s.rp.sendBuf.find? fun w => w.sig.isNone && w.ptag == kPtag h && kType w.h == kType h with
    | some w => s.resend w
    | none => s

/-- A lost TP packet (R207): resent from its copy or its header, or read afresh for a lost `TDATA`; a control answer is sent as it
was. -/
def State.lostTp (s : State) (h : Pkt) : State :=
  let t := kType h
  let again (s : State) : State := s.bump oTwinOut 47 16 1
  if t = 9 then (again s).send true h []
  else if t = 8 ∨ t = 10 then
    match s.tp.await.find? fun w => w.sent && w.copy.isNone && w.ttag == kTtag h && kType w.h == t && kBit4 w.h == kBit4 h with
    | some w => (again s).send true w.h w.data
    | none => s
  else if t = 11 ∧ kBit4 h then
    (match tfind s.tp.ctlSent (kTtag h) with
     | some e => if e.1 = h then (again s).send true h e.2 else s
     | none => s)
  else if t = 11 then
    let la := kLa h
    let n := (s.regionAt (la * 16)).getD (kRgn h)
    let pl := s.place n la
    let q := mkPkt [(0, 10), (8, kDiid h), (23, s.iid), (38, kRgn h), (46, la), (69, kTtag h)]
    let l : RowLine := { la := la, lb := pl.1, ix := pl.2, scale := false, st := .todo }
    (again s).sendLine (lineAccess 11 n l .read (.fetch q))
  else s

/-- The link reports a lost outbound packet. -/
def execLinkLost (tp : Bool) (h : Pkt) (s : State) : Host.Outcome State Fault Refusal :=
  .next (if !s.hasPort (linkPort tp) ∨ s.pins.poreset then s
    else if tp then s.lostTp h else s.lostRp h)

/-- Every unanswered packet is answered at the sender (R199). -/
def State.loseAllSent (s : State) : State :=
  if s.rp.sendBuf = [] then s
  else (foldState State.loseSent s.rp.sendBuf s).setBit oRmtErr 0

/-- `LINK_UP` of RP or TP changes, a wake event (R261): transmit credits start from 0; on a rise the link holds 64 receive credits; on a fall RP
answers every unanswered packet, and TP loses its twin. -/
def execLinkUpChange (tp up : Bool) (s : State) : Host.Outcome State Fault Refusal :=
  .next (
    let l := s.link tp
    if !s.hasPort (linkPort tp) ∨ s.pins.poreset ∨ l.up = up then s
    else
      let s := s.wake
      let s := s.setLink tp { l with up := up, txCrd := 0, rxCrd := if up then 64 else 0 }
      if up then s
      else if tp then s.goDown.settleAll
      else s.loseAllSent)

/-- The link grants a transmit credit: a waiting packet goes (R49). -/
def execLinkTxCredit (tp : Bool) (s : State) : Host.Outcome State Fault Refusal :=
  .next (
    let l := s.link tp
    if !s.hasPort (linkPort tp) ∨ s.pins.poreset ∨ !l.up then s
    else (s.setLink tp { l with txCrd := l.txCrd + 1 }).flushLink tp)

end Sys2Proof.Machine
end

