-- ==== Sys2Proof/Machine/Turn.lean ====
section
/-! DEFINITION. The turn boundary (R27) and the hang detection it drives (R24, R288 to R290). -/
namespace Sys2Proof.Machine

/-! ## What a boundary does -/

/-- Copies a group's shadow table into its active one (R97). DESIGN CHOICE (log 60): the cycle of the copy, in which the pending bit
still counts, is the last of the turn. -/
def State.swapGroup (s : State) (g : Nat) : State :=
  let s := if s.bit oSwap g && (s.group g).swapArmed then
      (foldState (fun s w => s.setReg (oSlotAct g w) (s.reg (oSlotShd g w))) [0, 1, 2, 3] s).setFld oSwap g g 0
    else s
  s.modGroup g fun q => { q with swapArmed := s.bit oSwap g, grantCount := 0, grants := 0 }

/-- Notes groups without a BT slot (R222, Table 10.9). -/
def State.noteNoSlot (s : State) : State :=
  let gs := (List.range s.nGroups).filter fun g => !s.btSlot g
  let s := s.setReg oNoSlot (BitVec.ofNat 64 (gs.foldl (fun m g => m + 2 ^ g) 0))
  if gs = [] then s else s.setBit oIntErr 11

/-- Updates a port's stall count from the ending turn (R288). -/
def State.stallPort (s : State) (p : Nat) : State :=
  let q := s.port p
  if !s.hasPort p ∨ q.fence ≠ .free then s
  else
    let zero := q.progress || (q.outR == 0 && q.outA == 0 && q.inq.isEmpty)
    let s := s.setFld (oProg p) 15 0 (if zero then 0 else min (s.field (oProg p) 15 0 + 1) 0xFFFF)
    s.modPort p fun q => { q with progress := false, hangRep := q.hangRep && !zero }

/-- A ring operation of context c held at its bound (R156), of a port's requests. -/
def Req.holdsRing (c : Nat) (r : Req) : Bool := r.phase == .held && hCtx r.h == c && !isWait (hOpc r.h)

/-- A context holds a registered wait or a held ring operation (R289). -/
def State.ctxWaits (s : State) (c : Nat) : Bool :=
  s.waiters.any (fun w => w.ctx == c) || s.timedQ.any (fun t => t.held && t.ctx == c)
  || (partnerPorts.any fun p => (s.port p).reqs.any fun r => r.holdsRing c)
  || s.rp.batches.any fun e => e.2.ringHeld && s.winCtx e.2.win == c

/-- Updates the stall count of the context in slot i (R289). -/
def State.stallCtx (s : State) (i : Nat) : State :=
  if s.tab (oCtxt i 0) 63 63 = 0 ∨ !s.ctxWaits (s.tab (oCtxt i 0) 57 48) ∨ tget false s.ctxMoved i then
    { s with ctxStall := tdel s.ctxStall i }
  else { s with ctxStall := tset s.ctxStall i (tget 0 s.ctxStall i + 1) }

/-- One core's heartbeat at a boundary: a core that runs advances it every 16 turns; the turns it stands still are counted (R24). -/
def State.beatCore (s : State) (k : Nat) : State :=
  if s.coreRuns k && s.turn % 16 == 0 then
    { s.setFld (oHb k) 31 0 (s.field (oHb k) 31 0 + 1) with fw := { s.fw with stood := tdel s.fw.stood k } }
  else { s with fw := { s.fw with stood := tset s.fw.stood k (tget 0 s.fw.stood k + 1) } }

/-- Heartbeats of the control cores; `stopped` are those that do not execute (log 15). -/
def State.beatCores (s : State) (stopped : Nat) : State :=
  let s := { s with fw := { s.fw with stopped := stopped % 16 } }
  if s.loaded then foldState State.beatCore [0, 1, 2, 3] s else { s with fw := { s.fw with stood := [] } }

/-- Counts quiet turns while a timer is armed (R260). -/
def State.countQuiet (s : State) : State :=
  let s :=
    if s.field oArm 31 0 = 0 then s
    else if s.quietNow then s.setFld oIdle 31 0 (min (s.field oIdle 31 0 + 1) (2 ^ 32 - 1)) else s.setFld oIdle 31 0 0
  { s with pw := { s.pw with quiet := true } }

/-- Counts a turn in which a part-specific condition acted (R258). -/
def State.countVar (s : State) : State :=
  let acted := s.pw.varTurn || s.domains.any s.hot || s.rails.any s.overRail
  let s := if acted then s.bump oVar 31 0 1 else s
  { s with pw := { s.pw with varTurn := s.domains.any fun d => (s.dom d).droop } }

/-- The response of R246 ends once the host has cleared `DROOP_LONG`. -/
def State.endDroopCaps (s : State) : State :=
  if s.bit oNote 0 then s else foldState (fun s d => s.modDom d fun q => { q with droopCap := none }) s.domains s

/-- The answers that wait for targets: `PHASE_SET` once every unlocked domain runs at its target (R255), `DOMAIN_LOCK` once
every named one runs at the point (R256). -/
def State.answerPower (s : State) : State :=
  let s := match s.pw.phaseCmd with
    | some n =>
      if s.domains.all fun d => s.locked d || s.opOf d == s.tgtOf d then
        { s with pw := { s.pw with phaseCmd := none } }.outcome n 0 3 else s
    | none => s
  match s.pw.lockCmd with
  | some (n, m) =>
    if s.domains.all fun d => !bitAt m d || s.opOf d == s.field oLock 18 16 then
      { s with pw := { s.pw with lockCmd := none } }.outcome n 0 3 else s
  | none => s

/-- `THERM_TRIP_N` is driven from 125 °C on, and released once every sensor reads 120 °C or below (R325). -/
def State.driveTherm (s : State) : State :=
  { s with pins := { s.pins with thermTrip :=
      !s.hotSensors.isEmpty || (s.pins.thermTrip && s.domains.any fun d => decide (120 < s.field (oDom d) 15 8)) } }

/-- CC1's part of a boundary: throttling, idleness, targets, the answers that wait for points (R251, R254 to R256). -/
def State.manage (s : State) (acts : List (Nat × Nat)) : State :=
  if s.coreRuns 1 then (((s.throttle.countIdle acts).endDroopCaps).retarget).answerPower else s

/-- The power manager's turn: switches decided in the ended turn, estimates, what they show, CC1's decisions, the raises of
voltages. A lowering of a voltage follows its switch in the next cycle (Table 11.3). -/
def State.powerTurn (s : State) (temps margins : List Nat) : State :=
  let acts := (List.range 9).map s.activity
  let s := foldState State.settleVolt s.domains s
  let s := if s.sequences then foldState State.seqPll s.domains s else s
  let s := ((s.estimate temps margins).noteOver).manage acts
  let s := s.countVar.driveTherm
  foldState (fun s d =>
    let s := s.modDom d fun q => { q with late := false, droopLate := false }
    if s.opOf d < s.tgtOf d then s.seqVolt d (s.turn + 1) else s) s.domains s

/-- A turn boundary (R27). -/
def State.boundary (s : State) (ftime : Word) (temps margins : List Nat) (stopped : Nat) : State :=
  let s := s.endCycle
  let s := ({ s with turn := s.turn + 1, cyc := 0 }).sample ftime
  let s := s.powerTurn temps margins
  let s := foldState State.swapGroup (List.range s.nGroups) s
  let s := { s with rankNow := s.rank, rank := s.rankLate }
  let s := s.noteNoSlot
  let s := foldState (fun s sl => s.modSlice sl fun q => { q with acc := 0, gateCnt := 0 }) (List.range s.build.slices) s
  let s := if s.awake then s.startCycle else s
  let s := foldState State.stallPort (List.range 13) s
  let s := { foldState State.stallCtx (List.range 64) s with ctxMoved := [] }
  let s := (s.beatCores stopped).countQuiet
  (s.nextRamps).modPort 12 fun q => { q with turnUse := 0 }

/-- The boundary comes after the last cycle of a turn, while the turn counter runs (R27, Table 11.7). -/
def execTurnBoundary (ftime : Word) (sensors : Sensors) (stopped : Nat) (s : State) : Host.Outcome State Fault Refusal :=
  .next (if s.cyc = 4095 ∧ s.ps ≤ 1 ∧ !s.pins.poreset then s.boundary ftime sensors.temps sensors.margins stopped else s)

/-! ## Hangs (R288 to R290) -/

/-- Captures a hung request in `GLB.HANG_CTX` where no capture is held. -/
def State.captureHang (s : State) (kind port ctx tag opc : Nat) : State :=
  if s.bit oHangCtx 63 then s
  else s.setReg oHangCtx (BitVec.ofNat 64
    (2 ^ 63 + kind * 2 ^ 62 + port * 2 ^ 58 + ctx * 2 ^ 48 + tag * 2 ^ 40 + opc * 2 ^ 32 + s.turn % 2 ^ 32))

/-- `EVT_INFO` of a `HANG` event (R290). -/
def State.hangInfo (s : State) (kind port : Nat) : Word :=
  BitVec.ofNat 64 (kind + port * 16 + s.field oHangCfg 15 0 * 2 ^ 16)

/-- The port's oldest request accepted or held at acceptance and not yet answered. -/
def Port.oldestHdr (q : Port) : Option Hdr :=
  match q.reqs.find? fun r => r.phase != .refused && r.phase != .yielded with
  | some r => some r.h
  | none => q.inq.head?.map fun w => w.h

/-- A port's stall count has reached the window at this boundary (R288). -/
def execPortHang (p : Nat) (s : State) : Host.Outcome State Fault Refusal :=
  .next (
    let w := s.field oHangCfg 15 0
    let q := s.port p
    if !s.hasPort p ∨ s.pins.poreset ∨ q.fence ≠ .free ∨ w = 0 ∨ s.field (oProg p) 15 0 ≠ w ∨ q.hangRep then s
    else
      let h := q.oldestHdr.getD 0
      let s := (s.modPort p fun q => { q with hangRep := true }).setBit oHangPorts p
      let s := if isPartner p then s.event p 3 (hCtx h) (hTag h) (s.hangInfo 0 p) else s
      let s := s.captureHang 0 p (hCtx h) (hTag h) (hOpc h)
      let s := s.keepFault 1 p 0 (hCtx h) (s.reg oHangCtx).toNat
      if p ≠ 12 ∧ s.bit (oHangPort p) 0 then (s.fencePort p 2).settleAll else s)

/-- A port's oldest registered wait of a context, else its oldest held operation: tag and opcode. -/
def State.ctxOldest (s : State) (c p : Nat) : Option (Nat × Nat) :=
  match s.waiters.find? fun w => w.ctx == c && w.port == p with
  | some w => some (w.tag, if w.isFlag then opFlgWait else opCntWait)
  | none =>
    match (s.port p).reqs.find? fun r => r.holdsRing c with
    | some r => some (hTag r.h, hOpc r.h)
    | none =>
      if p = 10 ∧ ((s.timedQ.any fun t => t.held && t.ctx == c) ∨ s.rp.batches.any fun e => e.2.ringHeld && s.winCtx e.2.win == c)
      then some (0, opCntAdd) else none

/-- The stall count of the context in a slot has reached the window at this boundary (R289). -/
def execContextHang (slot : Nat) (s : State) : Host.Outcome State Fault Refusal :=
  .next (
    let w := s.field oHangCfg 15 0
    let c := s.tab (oCtxt slot 0) 57 48
    if slot ≥ 64 ∨ s.pins.poreset ∨ w = 0 ∨ !s.bit oHangCfg 16 ∨ tget 0 s.ctxStall slot ≠ w then s
    else
      let s := { s.setBit oHangSlots slot with ctxStall := tset s.ctxStall slot (w + 1) }
      let ps := (List.range 13).filterMap fun p => (s.ctxOldest c p).map fun t => (p, t)
      let s := foldState (fun s (e : Nat × Nat × Nat) =>
        if isPartner e.1 then s.event e.1 3 c e.2.1 (s.hangInfo 1 e.1) else s) ps s
      let s := match ps with
        | (p, t) :: _ => s.captureHang 1 p c t.1 t.2
        | [] => s
      s.keepFault 2 0 0 c (s.reg oHangCtx).toNat)

/-- The hang of core `k` can be found: its heartbeat has stood still for 256 turns; the watchdog looks at CC0, and CC0 at the others
(R24). -/
def State.hangFound (s : State) (k : Nat) : Bool := decide (256 ≤ tget 0 s.fw.stood k) && (k == 0 || s.coreRuns 0)

/-- Heartbeats of the named cores have not advanced for 256 turns (R24): the watchdog records it in the keep domain itself
(R303). Until the warm recovery no duty of theirs goes on, and no command is answered (R277, R300). -/
def execCcHang (cores : Nat) (s : State) : Host.Outcome State Fault Refusal :=
  .next (
    let m := cores % 16
    if m = 0 ∨ s.pins.poreset ∨ !s.loaded ∨ m &&& s.fw.hung ≠ 0 ∨ !(([0, 1, 2, 3] : List Nat).all fun k => !bitAt m k || s.hangFound k) then s
    else
      let t := { s with fw := { s.fw with hung := s.fw.hung ||| m } }
      if s.bit oGlbErr 8 then t
      else ((t.setFld oGlbErr 19 16 m).setBit oGlbErr 8).faultWords (fun i v t => t.setReg (oKeep i) v) 7 0 0 0 m)

end Sys2Proof.Machine
end

