-- ==== Sys2Proof/Machine/Regions.lean ====
section
/-! DEFINITION. Changing regions (§2.4 to §2.8): the checks of Table 2.7, the definition, the blanking of `REGION_CLEAR`. -/
namespace Sys2Proof.Machine

/-- The four words of a region entry as a command or a control message carries them. -/
structure RgnDef where
  span : Nat
  attr : Nat
  aux : Nat
  deriving DecidableEq, Repr

/-- The definition that command n carries. -/
def State.cmdDef (s : State) (n : Nat) : RgnDef := { span := s.cmdW n 2, attr := s.cmdW n 3, aux := s.cmdW n 4 }

def RgnDef.base (d : RgnDef) : Nat := fld d.span 13 0
def RgnDef.size (d : RgnDef) : Nat := fld d.span 46 32
def RgnDef.fmt (d : RgnDef) : Nat := fld d.attr 3 0
def RgnDef.twin (d : RgnDef) : Bool := bitAt d.attr 5
def RgnDef.scaleOfs (d : RgnDef) : Nat := fld d.aux 45 32

/-- Row 1 of Table 2.7: index, size and span are as they must be. -/
def State.spanOk (s : State) (n : Nat) (d : RgnDef) : Bool :=
  decide (n ≤ 255) && decide (0 < d.size) && decide ((d.base + d.size) * 512 ≤ 16384 * s.nBanks)
  && (List.range 256).all fun m => m == n || !s.rgnValid m
      || decide (d.base + d.size ≤ s.rgnBase m ∨ s.rgnBase m + s.rgnSize m ≤ d.base)

/-- `SCALE_OFS` is as R34 has it. -/
def RgnDef.scaleOk (d : RgnDef) : Bool :=
  if isMx d.fmt then decide (1 ≤ d.scaleOfs ∧ d.scaleOfs + ceilDiv d.scaleOfs (mxBlockBytes d.fmt) ≤ d.size)
  else d.scaleOfs == 0

/-- A GROUP region is as R36 has it. -/
def RgnDef.groupOk (d : RgnDef) (slices : Nat) : Bool :=
  let u := if slices = 6 then 3 else 1
  !bitAt d.attr 4 || (d.base % u == 0 && d.size % u == 0 && !isMx d.fmt)

/-- Row 3 of Table 2.7: no reserved code, `ANCHOR`, `SCALE_OFS`, GROUP and SHARES as they must be. -/
def RgnDef.formOk (d : RgnDef) (slices : Nat) : Bool :=
  decide (d.fmt < 14) && fld d.attr 9 8 != 3 && fld d.attr 7 6 != 3
  && (fld d.attr 23 16 == 0 || d.fmt == fmtFx64) && d.scaleOk && d.groupOk slices
  && !(fld d.attr 7 6 == 2 && !bitAt d.attr 4)

/-- Requests or streams hold a valid region (row 5 of Table 2.7). -/
def State.rgnBusy (s : State) (n : Nat) : Bool := s.rgnValid n && s.inflight n != 0

/-- Writes a region entry. -/
def State.defineRegion (s : State) (n : Nat) (d : RgnDef) : State :=
  ((s.setReg (oRgn n 0) (BitVec.ofNat 64 (2 ^ 63 + d.size * 2 ^ 32 + d.base))).setReg (oRgn n 8)
    (BitVec.ofNat 64 (d.attr &&& 0x1FFF0007FFFF03FF))).setReg (oRgn n 16) (BitVec.ofNat 64 (d.aux &&& 0x3FFFFFFFFFFF))

/-- Invalidates a region entry and lifts its lock; its lines stay as they are (R39). -/
def State.deleteRegion (s : State) (n : Nat) : State := s.setFld (oRgn n 0) 63 62 0

/-- A line loses its valid and poison bits where its array holds it, and where a migration copies it to (R42, R220). -/
def State.blankLine (s : State) (lb ix : Nat) : State :=
  if s.dead lb then s
  else
    let blank (s : State) (h : Home) : State := if s.imgByte h 148 = 0 then s else s.setMeta h false false
    let s := blank s (s.home lb ix)
    if s.migrating lb then blank s (arrHome (s.dualOf lb) ix) else s

/-- Blanks the lines of region n, each with its write notice (R17, R42). -/
def State.blankRegion (s : State) (n : Nat) : State :=
  foldState (fun s (i : Nat) =>
    let la := s.rgnBase n * 512 + i
    let pl := s.place n la
    (s.blankLine pl.1 pl.2).notice la) (List.range (s.rgnSize n * 512)) s

/-- Locks a region and starts its clearing, for a command or for the twin's message (R42). -/
def State.startClear (s : State) (n : Nat) (cmd : Option Nat) : State :=
  let s := s.setFld (oRgn n 0) 62 61 3
  { s.blankRegion n with fw := { s.fw with clearing := some (cmd, n) } }

end Sys2Proof.Machine
end

