-- ==== Sys2Proof/Machine/Twin.lean ====
section
/-! DEFINITION. Commands of the TP chuck (§9.7 to §9.11): mirrors, repairs, control messages. -/
namespace Sys2Proof.Machine

/-- The sender is the bound peer. -/
def State.fromPeer (s : State) (h : Pkt) : Bool := s.twin != 0 && kSiid h == s.peer

/-! ## The peer's packets (R205, R206, R208) -/

/-- A mirror write of the peer: stored as agent 11, or answered `RETRY` (locked region, held slice) or `ECC` (DEAD bank, no
twin region there, log 28). -/
def State.takeMirror (s : State) (h : Pkt) (data : List Byte) : State :=
  let la := kLa h
  match s.regionAt (la * 16) with
  | none => s.answerTp h 9 3 false []
  | some n =>
    let pl := s.place n la
    if !s.rgnTwin n ∨ s.dead pl.1 then s.answerTp h 9 3 false []
    else if s.rgnLock n ∨ s.held (sliceOf pl.1) then s.answerTp h 9 1 false []
    else
      let l : RowLine := { la := la, lb := pl.1, ix := pl.2, scale := false, st := .todo }
      let bytes := data.take 128 ++ List.replicate (128 - data.length) 0
      s.sendLine (lineAccess 11 n l (.write ((List.range 128).zip bytes) false false) (.mirror h))

/-- A fetch of the peer: the copy is read as agent 11. -/
def State.takeFetch (s : State) (h : Pkt) : State :=
  let la := kLa h
  match s.regionAt (la * 16) with
  | none => s.answerTp h 11 3 false []
  | some n =>
    let pl := s.place n la
    if s.held (sliceOf pl.1) then s.answerTp h 11 1 false []
    else
      let l : RowLine := { la := la, lb := pl.1, ix := pl.2, scale := false, st := .todo }
      s.sendLine (lineAccess 11 n l .read (.fetch h))

/-- A mirrored line written by the peer (R205). -/
def execTwrite (h : Pkt) (data : List Byte) (s : State) : Host.Outcome State Fault Refusal :=
  .next (s.inbound true h fun s => if kType h = 8 ∧ s.fromPeer h then s.takeMirror h data else s)

/-- The peer fetches a line (R208). -/
def execTfetch (h : Pkt) (s : State) : Host.Outcome State Fault Refusal :=
  .next (s.inbound true h fun s => if kType h = 10 ∧ !kBit4 h ∧ s.fromPeer h then s.takeFetch h else s)

/-! ## Answers (R206, R208) -/

/-- What awaits the answer that a packet carries, with its echoes. -/
def State.awaited (s : State) (h : Pkt) (fetch : Bool) : Option TAwait :=
  s.tp.await.find? fun w => w.sent && w.copy.isNone && w.ttag == kTtag h && w.fetch == fetch && kBit4 w.h == kBit4 h
    && kRgn w.h == kRgn h && kLa w.h == kLa h

/-- The answer to a control message has come. -/
def State.dropControl (s : State) (h : Pkt) : State :=
  match s.awaited h true with
  | some w => s.dropAwait w
  | none => s

/-- A `TACK`: the mirror is complete, to be resent after one turn, or lost with its unit marked dirty. A line that the twin alone was
to store (R43) sets its conversion flags with `OK` (R171), and is lost with `ECC`. -/
def State.takeTack (s : State) (h : Pkt) : State :=
  match s.awaited h false with
  | none => s
  | some w =>
    if kTcode h = 1 then
      { s with tp := { s.tp with await := s.tp.await.replace w { w with retryAt := some (s.turn + 1) } } }
    else
      let s := (s.dropAwait w).sendNextMirror
      let s :=
        if kTcode h = 0 then
          (match w.dest with
           | .resync => s
           | d => (s.fxSeen (kRgn w.h) w.fx.1 w.fx.2 d).deliver d w.la 0 false [])
        else
          let s := (s.markDirty w.la).setBit oTwinErr 2
          match w.dest with
          | .resync => { s with tp := { s.tp with resync := s.tp.resync.map fun q => { q with failed := true } } }
          | d => s.deliver d w.la (if s.dead w.lb then 3 else 12) false []
      s.finishCopy

/-- An inbound `TACK` (R206). -/
def execTack (h : Pkt) (s : State) : Host.Outcome State Fault Refusal :=
  .next ((s.inbound true h fun s => if kType h = 9 ∧ s.fromPeer h then s.takeTack h else s).settleAll)

/-- A `TDATA`: the repaired line is delivered and written back, or there is no good copy (R208). A copy that arrives `BLANK` is
written back as a valid line of zeros (DESIGN CHOICE, log 28). A merge goes on into its copy, once there is room for its mirror; a
copy for a stream that a notice has squashed since is dropped (R131). -/
def State.takeCopy (s : State) (h : Pkt) (data : List Byte) : State :=
  match s.awaited h true with
  | none => s
  | some w =>
    if kTcode h ≠ 0 then ((s.dropAwait w).sendNextFetch).loseAwait w
    else
      let d := if kBlank h then zeroLine else data.take 128 ++ List.replicate (128 - data.length) 0
      match w.redo with
      | some a =>
        if s.redoWaits then { s with tp := { s.tp with await := s.tp.await.replace w { w with copy := some d } } }
        else s.finishRedo w a d
      | none =>
        let s := (s.dropAwait w).sendNextFetch
        let s := if s.dead w.lb ∨ w.noticed then s else s.commitLine w.lb w.ix w.la d
        if w.noticed ∧ w.dest.ofStream then s else (s.noteRepair w.dest).deliver w.dest w.la 0 (kBlank h) d

/-- An inbound `TDATA` (R208). -/
def execTdata (h : Pkt) (data : List Byte) (s : State) : Host.Outcome State Fault Refusal :=
  .next ((s.inbound true h fun s => if kType h = 11 ∧ !kBit4 h ∧ s.fromPeer h then s.takeCopy h data else s).settleAll)

/-- A mirror answered `RETRY` is resent one turn later (R206). -/
def execTwinRetryResend (tag : Nat) (s : State) : Host.Outcome State Fault Refusal :=
  .next (match s.tp.await.find? fun w => w.isMirror && w.sent && w.ttag == tag with
    | none => s
    | some w =>
      if s.open 11 ∧ w.retryAt.any fun t => decide (t ≤ s.turn) then
        { s with tp := { s.tp with await := s.tp.await.replace w { w with retryAt := none } } }.send true w.h w.data
      else s)

/-- A mirror or fetch sent, under a tag, and unanswered for `TTO` turns. -/
def State.overdue (s : State) (tag : Nat) (w : TAwait) : Bool :=
  w.ttag == tag && w.sent && w.copy.isNone && decide (w.since + max 1 (s.field oTwinCfg 31 16) ≤ s.turn)

/-- A mirror or fetch unanswered `TTO` turns: `STATE` becomes DOWN (R206, R209). -/
def execTwinTimeout (tag : Nat) (s : State) : Host.Outcome State Fault Refusal :=
  .next (match s.tp.await.find? (s.overdue tag) with
    | none => s
    | some w => (if s.twin = 0 ∨ s.twin = twinDown then s.dropAwait w else s.goDown).settleAll)

/-! ## Binding (R202) -/

/-- A `TWIN_BIND` that waits here is answered: bound, or the identities do not match. -/
def State.bindNow (s : State) (n peer : Nat) (ok : Bool) : State :=
  let s := { s with tp := { s.tp with binding := none } }
  if ok then
    ((s.setFld oTwinStat 63 62 twinUp).setFld oTwinStat 14 0 peer).outcome n 0 4
  else s.outcome n 12 3

/-- Identity in a BIND payload is what this instance requires of its peer: `IID` and `SLICES` (R3, R202). -/
def State.identityOk (s : State) (data : List Byte) (peer : Nat) : Bool :=
  fld (payloadWord data 3) 14 0 == peer && fld (payloadWord data 2) 3 0 == s.build.slices && bitAt (payloadWord data 2) 27

/-- A BIND message or its answer (R202, R209): exchanges identities, binds where both ask, takes the end of the peer's resync.
A bound peer whose ask was seen already and that asks again has been reset (log 27). -/
def State.takeBind (s : State) (h : Pkt) (data : List Byte) : State :=
  let from_ := kSiid h
  let st := (data.getD 32 0).toNat
  let asks := kType h == 10 && bitAt st 0
  let s :=
    if kType h = 10 then
      let s := s.answerControl h 0 (s.bindPayload (s.bindState from_))
      let s := if s.fromPeer h ∧ (bitAt st 1 ∨ (asks ∧ s.tp.peerAsked = some from_)) then s.goDown.settleAll else s
      let s := if bitAt st 2 ∧ s.fromPeer h ∧ s.twin = twinResync then
          { s.setFld oTwinStat 63 62 twinUp with tp := { s.tp with dirty := [] } } else s
      s
    else s.dropControl h
  let s := if asks ∨ bitAt st 3 then { s with tp := { s.tp with peerAsked := some from_ } } else s
  match s.tp.binding with
  | some (n, peer, _) =>
    if peer ≠ from_ then s
    else if !s.identityOk data peer then s.bindNow n peer false
    else if bitAt st 0 then s.bindNow n peer true
    else s
  | none => s

/-- A BIND control message. -/
def execBindMessage (h : Pkt) (data : List Byte) (s : State) : Host.Outcome State Fault Refusal :=
  .next (s.inbound true h fun s => if (kType h = 10 ∨ kType h = 11) ∧ kBit4 h ∧ s.coreRuns 0 then s.takeBind h data else s)

/-! ## Region messages (R203) -/

/-- The region command that waits for the peer's answer is answered with it, and its region unlocked. A refusal makes it `TWIN`:
the manual says so of a definition; for a deletion or clear it gives no reply, and the model takes the same (DESIGN CHOICE,
log 34). -/
def State.regionAnswer (s : State) (h : Pkt) (msg : Nat) (act : Nat → Nat → State → State) : State :=
  let s := s.dropControl h
  match s.tp.regionCmd with
  | some (n, ix, m) =>
    if m ≠ msg then s
    else
      let s := { s.setFld (oRgn ix 0) 62 62 0 with tp := { s.tp with regionCmd := none } }
      if kTcode h ≠ 0 then s.outcome n 12 4 else act n ix s
  | none => s

/-- The peer gets back what it held before a definition that this instance then turned away: the definition of the region as it
stands here, or nothing (DESIGN CHOICE, log 34). -/
def State.undoDefine (s : State) (ix : Nat) : State :=
  if s.rgnValid ix ∧ s.rgnTwin ix then
    s.sendControl s.peer 0 (regionPayload ix (s.reg (oRgn ix 0)).toNat (s.reg (oRgn ix 8)).toNat (s.reg (oRgn ix 16)).toNat 0)
  else s.sendControl s.peer 0 (bytesLE 8 (msgDelete + 256 * ix))

/-- The peer has applied this instance's definition: the last rows of Table 2.7 here. -/
def State.finishDefine (n ix : Nat) (s : State) : State :=
  let d := s.cmdDef n
  if !s.spanOk ix d then (s.undoDefine ix).outcome n 5 1
  else if s.rgnBusy ix then (s.undoDefine ix).outcome n 11 5
  else (s.defineRegion ix d).outcome n 0 6

/-- An own region command waits for the peer about this region, or for a definition that overlaps this one (R32). -/
def State.regionWaits (s : State) (n : Nat) (d : RgnDef) : Bool :=
  s.tp.regionCmd.any fun c =>
    let e := s.cmdDef c.1
    c.2.1 == n || (c.2.2 == msgRegion && decide (d.base < e.base + e.size ∧ e.base < d.base + d.size))

/-- The peer's definition is checked and applied here, or the peer's answer ends this instance's own command (Table 2.7 rows
1 to 3 and 5). A region that a command of this instance has locked, or whose place one waits for, is busy. -/
def State.takeRegion (s : State) (h : Pkt) (data : List Byte) : State :=
  let n := fld (payloadWord data 0) 15 8
  let d : RgnDef := { span := payloadWord data 1, attr := payloadWord data 2, aux := payloadWord data 3 }
  if kType h = 10 then
    if !s.spanOk n d then s.answerControl h 5 []
    else if !d.formOk s.build.slices then s.answerControl h 6 []
    else if s.rgnBusy n ∨ (s.rgnValid n ∧ s.rgnLock n) ∨ s.regionWaits n d then s.answerControl h 11 []
    else (s.defineRegion n d).answerControl h 0 []
  else s.regionAnswer h msgRegion State.finishDefine

/-- A REGION control message. -/
def execRegionMessage (h : Pkt) (data : List Byte) (s : State) : Host.Outcome State Fault Refusal :=
  .next (s.inbound true h fun s =>
    if (kType h = 10 ∨ kType h = 11) ∧ kBit4 h ∧ s.fromPeer h ∧ s.coreRuns 0 then s.takeRegion h data else s)

/-- The peer deletes a twin region here, or answers this instance's own command. -/
def State.takeDelete (s : State) (h : Pkt) (data : List Byte) : State :=
  let n := fld (payloadWord data 0) 15 8
  if kType h = 10 then
    if !s.rgnValid n then s.answerControl h 5 []
    else if s.rgnBusy n ∨ s.rgnLock n then s.answerControl h 11 []
    else (s.deleteRegion n).answerControl h 0 []
  else s.regionAnswer h msgDelete fun n ix s => (s.deleteRegion ix).outcome n 0 6

/-- A DELETE control message. -/
def execDeleteMessage (h : Pkt) (data : List Byte) (s : State) : Host.Outcome State Fault Refusal :=
  .next (s.inbound true h fun s =>
    if (kType h = 10 ∨ kType h = 11) ∧ kBit4 h ∧ s.fromPeer h ∧ s.coreRuns 0 then s.takeDelete h data else s)

/-- The peer clears a twin region here, answered when it is done, or answers this instance's own command. The two clears run in
parallel (R203): lines blanked here before the peer refuses stay blank (DESIGN CHOICE, log 34). -/
def State.takeClear (s : State) (h : Pkt) (data : List Byte) : State :=
  let n := fld (payloadWord data 0) 15 8
  if kType h = 10 then
    if !s.rgnValid n then s.answerControl h 5 []
    else if s.rgnBusy n ∨ s.rgnLock n then s.answerControl h 11 []
    else
      let s := (s.setFld (oRgn n 0) 62 61 3).blankRegion n
      (s.setFld (oRgn n 0) 62 61 0).answerControl h 0 []
  else
    let s := s.dropControl h
    match s.tp.regionCmd with
    | some (c, ix, m) =>
      if m ≠ msgClear then s
      else if kTcode h ≠ 0 then
        { (s.setFld (oRgn ix 0) 62 61 0).outcome c 12 4 with
          tp := { s.tp with regionCmd := none }, fw := { s.fw with clearing := none } }
      else { s with tp := { s.tp with regionCmd := none, peerDone := true } }
    | none => s

/-- A CLEAR control message. -/
def execClearMessage (h : Pkt) (data : List Byte) (s : State) : Host.Outcome State Fault Refusal :=
  .next (s.inbound true h fun s =>
    if (kType h = 10 ∨ kType h = 11) ∧ kBit4 h ∧ s.fromPeer h ∧ s.coreRuns 0 then s.takeClear h data else s)

/-! ## Resync and loss (R209, R210) -/

/-- A chunk of the dirty map is asked for, by which the peer's resync begins here, or arrives at the source. -/
def State.takeDirty (s : State) (h : Pkt) (data : List Byte) : State :=
  let c := kLa h - 1
  if kType h = 10 then (s.setFld oTwinStat 63 62 twinResync).answerControl h 0 (s.dirtyChunk c)
  else
    let s := (s.dropControl h).mergeChunk c data
    match s.tp.resync with
    | none => s
    | some q =>
      let rest := q.chunks.filter (· != c)
      if q.chunks = [] then s
      else match rest with
        | [] =>
          let us := (s.tp.dirty.filter fun e => e.2).map fun e => e.1
          { s with tp := { s.tp with resync := some { q with chunks := [], units := us, line := 0 } } }
        | d :: _ => { s with tp := { s.tp with resync := some { q with chunks := rest } } }.sendControl s.peer (d + 1) (bytesLE 8 msgDirty)

/-- A DIRTY control message. -/
def execDirtyMessage (h : Pkt) (data : List Byte) (s : State) : Host.Outcome State Fault Refusal :=
  .next (s.inbound true h fun s =>
    if (kType h = 10 ∨ kType h = 11) ∧ kBit4 h ∧ s.fromPeer h ∧ s.coreRuns 0 then s.takeDirty h data else s)

/-- The pair is dissolved (R202). -/
def State.unbind (s : State) : State :=
  { s.setReg oTwinStat 0 with tp := { s.tp with await := [], dirty := [], resync := none, regionCmd := none, peerAsked := none } }

/-- An UNBIND control message. -/
def execUnbindMessage (h : Pkt) (_data : List Byte) (s : State) : Host.Outcome State Fault Refusal :=
  .next (s.inbound true h fun s =>
    if !s.coreRuns 0 then s
    else if kType h = 10 ∧ kBit4 h ∧ s.fromPeer h then s.unbind.answerControl h 0 []
    else if kType h = 11 ∧ kBit4 h then s.dropControl h else s)

/-- A DOWN control message: the receiver goes DOWN (R209). -/
def execDownMessage (h : Pkt) (_data : List Byte) (s : State) : Host.Outcome State Fault Refusal :=
  .next (s.inbound true h fun s =>
    if !s.coreRuns 0 then s
    else if kType h = 10 ∧ kBit4 h ∧ s.fromPeer h then (s.goDown.answerControl h 0 []).settleAll
    else if kType h = 11 ∧ kBit4 h ∧ s.fromPeer h then s.dropControl h else s)

end Sys2Proof.Machine
end

