-- ==== Sys2Proof/Machine/Firmware.lean ====
section
/-! DEFINITION. The Ploic commands (§12.3, §12.4): one meaning for each opcode of Table 12.9, and the ends of those that run
longer. Each takes the number n of the command it performs (log 19). -/
namespace Sys2Proof.Machine

/-! ## Queries (R280, R281, R284) -/

/-- `ECHO`. -/
def execEcho (n : Nat) (s : State) : Host.Outcome State Fault Refusal :=
  .next (s.runCmd opcEcho n fun s => s.reply n 0 0x11 ((List.range 7).map fun (i : Nat) => s.cmdW n (i + 1)))

/-- How many of the first `m` numbers satisfy `f`. -/
def countUpTo (m : Nat) (f : Nat → Bool) : Nat := ((List.range m).filter f).length

/-- `TWIN.STAT` as it reads: the dirty units counted in. -/
def State.twinStat (s : State) : Word := wput (s.reg oTwinStat) 46 32 s.dirtyCount

/-- W4 of `GET_INFO`. -/
def State.infoCounts (s : State) : Nat :=
  countUpTo 256 (fun n => !s.rgnValid n)
  + (if s.hasPort 10 then countUpTo 256 fun w => s.tab (oWin w) 63 63 == 0 else 0) * 2 ^ 16
  + s.bound.length * 2 ^ 32 + countUpTo s.nBanks s.dead * 2 ^ 48

/-- `GET_INFO`. -/
def execGetInfo (n : Nat) (s : State) : Host.Outcome State Fault Refusal :=
  .next (s.runCmd opcGetInfo n fun s =>
    s.reply n 0 0x11 [s.idVersion, s.idConfig, s.iid, s.infoCounts, s.minutes / 60 % 2 ^ 32, s.twinStat.toNat])

/-- Words 3 to 7 of `FW_INFO`: bytes 0 to 39 of the digest, byte 0 lowest. -/
def State.digestWords (s : State) : List Nat :=
  (List.range 5).map fun (w : Nat) => natLE ((List.range 8).map fun (i : Nat) => BitVec.ofNat 8 (s.fw.digest / 2 ^ (8 * (47 - (8 * w + i)))))

/-- `FW_INFO`. -/
def execFwInfo (n : Nat) (s : State) : Host.Outcome State Fault Refusal :=
  .next (s.runCmd opcFwInfo n fun s =>
    s.reply n 0 0x11 ([s.fw.verMajor * 2 ^ 32 + s.fw.verMinor * 2 ^ 16 + s.fw.verPatch, s.fw.build] ++ s.digestWords))

/-- A command whose opcode Table 12.9 does not define is answered `FORMAT` (R278). -/
def execUndefinedCommand (n : Nat) (s : State) : Host.Outcome State Fault Refusal :=
  .next (if laneOf (s.cmdOpc n) = none then s.runCmd (s.cmdOpc n) n fun s => s else s)

/-- `KEEP_READ`. -/
def execKeepRead (n : Nat) (s : State) : Host.Outcome State Fault Refusal :=
  .next (s.runCmd opcKeepRead n fun s =>
    let i := s.cmdF n 1 7 0
    let c := s.cmdF n 1 11 8
    if 63 < i ∨ c = 0 ∨ 6 < c ∨ 64 < i + c then s.outcome n 5 1
    else s.reply n 0 0x12 (s.cmdW n 1 :: (List.range c).map fun (k : Nat) => (s.reg (oKeep (i + k))).toNat))

/-- Registers a part of `KEEP_ERASE` clears (R302). -/
def keepPart (i : Nat) : List Nat :=
  if i = 0 then (List.range 32).map (32 + ·) else if i = 1 then [28, 29, 30, 31] else [27]

/-- Erases the named parts; the minutes of the next sample and re-plan count from the erased clock. -/
def State.eraseKeep (s : State) (parts : Nat) : State :=
  let m := s.minutes
  let s := foldState (fun s i => if bitAt parts i then foldState (fun s k => s.keepWrite k 0) (keepPart i) s else s) [0, 1, 2] s
  if bitAt parts 2 then { s with fw := { s.fw with sampleAt := s.fw.sampleAt - m, replanAt := s.fw.replanAt - m } } else s

/-- `KEEP_ERASE`. -/
def execKeepErase (n : Nat) (s : State) : Host.Outcome State Fault Refusal :=
  .next (s.runCmd opcKeepErase n fun s =>
    if s.cmdW n 2 ≠ 0x4B454550 then s.outcome n 6 1
    else if s.cmdF n 1 2 0 = 0 then s.outcome n 5 2
    else (s.eraseKeep (s.cmdF n 1 2 0)).outcome n 0 3)

/-! ## Regions (Table 2.7, R42, R203) -/

/-- Sends a region command of a twin region to the peer; the entry stays locked, where valid, until the answer. -/
def State.askPeer (s : State) (n ix msg : Nat) (data : List Byte) : State :=
  let s := if s.rgnValid ix then s.setFld (oRgn ix 0) 62 62 1 else s
  { s with tp := { s.tp with regionCmd := some (n, ix, msg), peerDone := false } }.sendControl s.peer 0 data

/-- `REGION_DEFINE`: of a twin region, before or after it, the peer is asked first (R203, Table 2.7 row 4), and whether the region is
held here is judged with its answer (row 5, `State.finishDefine`). -/
def execRegionDefine (n : Nat) (s : State) : Host.Outcome State Fault Refusal :=
  .next (s.runCmd opcRegionDefine n fun s =>
    let ix := s.cmdF n 1 15 0
    let d := s.cmdDef n
    let pair := d.twin || (s.rgnValid ix && s.rgnTwin ix)
    if !s.spanOk ix d then s.outcome n 5 1
    else if !d.formOk s.build.slices then s.outcome n 6 3
    else if pair ∧ s.twin ≠ twinUp then s.outcome n 12 4
    else if pair then s.askPeer n ix msgRegion (regionPayload ix d.span d.attr d.aux 0)
    else if s.rgnBusy ix then s.outcome n 11 5
    else (s.defineRegion ix d).outcome n 0 6)

/-- Rows 2 and 5 of Table 2.7, and R203, for `REGION_DELETE` and `REGION_CLEAR`: the refusal, if any. The manual gives no order
between `TWIN` and `BUSY`; `TWIN` comes first, as row 4 before row 5 (DESIGN CHOICE, log 34). -/
def State.rgnRefusal (s : State) (ix : Nat) : Option (Nat × Nat) :=
  if 255 < ix ∨ !s.rgnValid ix then some (5, 2)
  else if s.rgnTwin ix ∧ s.twin ≠ twinUp then some (12, 4)
  else if s.rgnBusy ix then some (11, 5)
  else none

/-- `REGION_DELETE`. -/
def execRegionDelete (n : Nat) (s : State) : Host.Outcome State Fault Refusal :=
  .next (s.runCmd opcRegionDelete n fun s =>
    let ix := s.cmdF n 1 15 0
    match s.rgnRefusal ix with
    | some (c, k) => s.outcome n c k
    | none =>
      if s.rgnTwin ix then s.askPeer n ix msgDelete (bytesLE 8 (msgDelete + 256 * ix)) else (s.deleteRegion ix).outcome n 0 6)

/-- `REGION_CLEAR`: the region is locked and blanked; the reply follows in `REGION_CLEAR_DONE`. -/
def execRegionClear (n : Nat) (s : State) : Host.Outcome State Fault Refusal :=
  .next (s.runCmd opcRegionClear n fun s =>
    let ix := s.cmdF n 1 15 0
    match s.rgnRefusal ix with
    | some (c, k) => s.outcome n c k
    | none =>
      let s := if s.rgnTwin ix then s.askPeer n ix msgClear (bytesLE 8 (msgClear + 256 * ix)) else s
      s.startClear ix (some n))

/-- Blanking has ended, at the peer too for a twin region: the region is unlocked and the command answered (R42). -/
def execRegionClearDone (s : State) : Host.Outcome State Fault Refusal :=
  .next (match s.fw.clearing with
    | none => s
    | some (cmd, ix) =>
      if !s.coreRuns 0 ∨ s.tp.regionCmd.isSome then s
      else
        let s := s.setFld (oRgn ix 0) 62 61 0
        let s := { s with fw := { s.fw with clearing := none }, tp := { s.tp with peerDone := false } }
        match cmd with
        | some n => if s.fw.running.any fun c => c.n == n then s.outcome n 0 6 else s
        | none => s)

/-! ## Windows (Tables 9.3, 9.4) -/

/-- The valid region that a span of 64 KiB units lies wholly inside. -/
def State.regionOfSpan (s : State) (base size : Nat) : Option Nat :=
  (List.range 256).find? fun n => s.rgnValid n && decide (s.rgnBase n ≤ base ∧ base + size ≤ s.rgnBase n + s.rgnSize n)

/-- Opens a window with the next generation (R187). -/
def State.openWindow (s : State) (n w ctx rgn : Nat) : State :=
  let gen := (s.winGen w + 1) % 2 ^ 16
  let base := s.cmdF n 2 13 0
  let size := s.cmdF n 2 30 16
  let s := s.setReg (oWin w) (BitVec.ofNat 64 (2 ^ 63 + 2 ^ 62 + ctx * 2 ^ 48 + gen * 2 ^ 32 + size * 2 ^ 16 + base))
  let s := s.setReg (oSnd w) (BitVec.ofNat 64 (s.cmdF n 3 30 16 * 2 ^ 16 + s.cmdF n 3 14 0))
  (s.holdRgn rgn).reply n 0 0x16 [gen]

/-- `WINDOW_OPEN`. -/
def execWindowOpen (n : Nat) (s : State) : Host.Outcome State Fault Refusal :=
  .next (s.runCmd opcWindowOpen n fun s =>
    let w := s.cmdF n 1 15 0
    let ctx := s.cmdF n 1 41 32
    if !s.hasPort 10 ∨ 255 < w ∨ s.cmdF n 2 30 16 = 0 then s.outcome n 5 1
    else match s.regionOfSpan (s.cmdF n 2 13 0) (s.cmdF n 2 30 16) with
      | none => s.outcome n 5 2
      | some rgn =>
        if !s.isBound ctx then s.outcome n 10 3
        else if s.tab (oWin w) 63 63 = 1 then s.outcome n 11 4
        else s.openWindow n w ctx rgn)

/-- Discards a window's held closing packets with `LATE`, and frees its batch entries (Table 9.4 step 2). -/
def State.dropBatches (s : State) (w : Nat) : State :=
  foldState (fun s (e : Nat × OBatch) =>
    if e.2.win ≠ w then s
    else
      let s := match e.2.closing with
        | some (h, _) => s.refusePkt h 9
        | none => s
      s.freeBatch e.1) s.rp.batches s

/-- `WINDOW_CLOSE`: steps 1 and 2; the reply follows in `WINDOW_CLOSE_DONE`. -/
def execWindowClose (n : Nat) (s : State) : Host.Outcome State Fault Refusal :=
  .next (s.runCmd opcWindowClose n fun s =>
    let w := s.cmdF n 1 15 0
    if !s.hasPort 10 ∨ 255 < w then s.outcome n 5 1
    else if !s.winOpen w then s.outcome n 5 5
    else
      let s := (s.setFld (oWin w) 62 62 0).dropBatches w
      { s with fw := { s.fw with closingWin := some (n, w) } })

/-- `PENDING` is 0: the entry is invalid, the region released, the command answered (Table 9.4 steps 3 and 4). -/
def execWindowCloseDone (s : State) : Host.Outcome State Fault Refusal :=
  .next (match s.fw.closingWin with
    | none => s
    | some (n, w) =>
      if !s.coreRuns 3 ∨ s.tab (oSnd w) 47 32 ≠ 0 then s
      else
        let s := match s.regionOfSpan (s.winBase w) (s.winSize w) with
          | some rgn => s.dropRgn rgn
          | none => s
        { s.setFld (oWin w) 63 63 0 with fw := { s.fw with closingWin := none } }.outcome n 0 6)

/-! ## Contexts and rings (Table 7.6, R157) -/

/-- Counters and flags of every bound context together. -/
def State.boundTotals (s : State) : Nat × Nat :=
  s.bound.foldl (fun a e => (a.1 + e.2.ccnt, a.2 + e.2.fcnt)) (0, 0)

/-- `CTX_BIND`. -/
def execCtxBind (n : Nat) (s : State) : Host.Outcome State Fault Refusal :=
  .next (s.runCmd opcCtxBind n fun s =>
    let c := s.cmdF n 1 9 0
    let b : Bound :=
      { ccnt := s.cmdF n 2 28 16, fcnt := s.cmdF n 3 30 16, rbase := s.cmdF n 2 14 8, rcnt := s.cmdF n 2 7 0,
        ecen := s.cmdF n 3 12 12 == 1, ectr := s.cmdF n 3 11 0, epoch := s.cmdF n 1 63 32, keys := s.cmdF n 4 31 0,
        ctrs := [], flgs := [] }
    let t := s.boundTotals
    if 4096 < b.ccnt ∨ 16384 < b.fcnt ∨ 128 < b.rbase + b.rcnt ∨ (b.ecen ∧ b.ccnt ≤ b.ectr) ∨ 16384 < t.1 + b.ccnt ∨ 65536 < t.2 + b.fcnt then
      s.outcome n 5 1
    else if s.isBound c then s.outcome n 11 2
    else { s with bound := tset s.bound c b }.outcome n 0 5)

/-- A window or a scoreboard range refers to a context. -/
def State.ctxReferred (s : State) (c : Nat) : Bool :=
  (List.range 256).any fun i =>
    (s.tab (oWin i) 63 63 == 1 && s.winCtx i == c) || (s.sbValid i && s.tab (oSbEnt i) 58 49 == c)

/-- `CTX_UNBIND`. -/
def execCtxUnbind (n : Nat) (s : State) : Host.Outcome State Fault Refusal :=
  .next (s.runCmd opcCtxUnbind n fun s =>
    let c := s.cmdF n 1 9 0
    let slot := s.slotOf c
    let pin : Bool := match slot with
      | some i => s.pinned i
      | none => false
    if !s.isBound c then s.outcome n 10 3
    else if pin ∨ s.ctxReferred c then s.outcome n 11 4
    else
      let s := match slot with
        | some i => s.freeSlot i
        | none => s
      { s with bound := tdel s.bound c }.outcome n 0 5)

/-- Value of a local counter of a bound context, resident or not. -/
def State.ctxCtr (s : State) (c v : Nat) : Nat :=
  match s.slotOf c with
  | some i => (s.ctr (s.cbase i + v)).val.toNat
  | none => (((tfind (s.boundOf c).ctrs v).map fun (x : Ctr) => x.val.toNat)).getD 0

/-- The ring that holds a local counter of a context. -/
def State.ctxRing (s : State) (c v : Nat) : Option Nat :=
  match s.slotOf c with
  | some i => s.ringOf (s.cbase i + v)
  | none => none

/-- The `DREQ` line of a declaration is bound to a ring already. -/
def State.dreqTaken (s : State) (dp line : Nat) : Bool :=
  (List.range 64).any fun k =>
    s.tab (oRing k) 63 62 == 3 && s.tab (oRing k) 60 60 == dp && s.tab (oRing k) 59 56 == line

/-- Enters a ring in entry k, its context resident in slot i; its mark starts at P for room, at C for data (R158). -/
def State.enterRing (s : State) (n k i : Nat) : State :=
  let w2 := s.cmdW n 2
  let p := s.cbase i + s.cmdF n 1 27 16
  let c := s.cbase i + s.cmdF n 1 43 32
  let s := s.setReg (oRing k) (BitVec.ofNat 64 (2 ^ 63 + fld w2 62 56 * 2 ^ 56 + p % 4096 * 2 ^ 44 + c % 4096 * 2 ^ 32 + fld w2 31 8 * 2 ^ 8))
  let m := if bitAt w2 61 then s.ringC k else s.ringP k
  { s with marks := tset s.marks k m }.reply n 0 0x14 [k]

/-- Removes the ring named by two counters. -/
def State.removeRing (s : State) (n c : Nat) : State :=
  match s.ctxRing c (s.cmdF n 1 27 16), s.ctxRing c (s.cmdF n 1 43 32) with
  | some k, some k' =>
    if k = k' then { s.setReg (oRing k) 0 with marks := tdel s.marks k }.reply n 0 0x14 [k] else s.outcome n 5 2
  | _, _ => s.outcome n 5 2

/-- Check 2 of R157 for a declaration. -/
def State.ringRange (s : State) (n c : Nat) : Bool :=
  let cap := s.cmdF n 2 31 16
  let burst := s.cmdF n 2 15 8
  let p := s.ctxCtr c (s.cmdF n 1 27 16)
  let q := s.ctxCtr c (s.cmdF n 1 43 32)
  decide (1 ≤ burst ∧ burst ≤ cap) && s.cmdF n 1 27 16 != s.cmdF n 1 43 32 && decide (q ≤ p ∧ p ≤ q + cap)
  && (List.range 64).any (fun k => s.tab (oRing k) 63 63 == 0)
  && (s.cmdF n 2 62 62 == 0 || s.hasPort (8 + s.cmdF n 2 60 60))

/-- Check 3 of R157. -/
def State.ringBusy (s : State) (n c : Nat) : Bool :=
  (s.ctxRing c (s.cmdF n 1 27 16)).isSome || (s.ctxRing c (s.cmdF n 1 43 32)).isSome
  || (s.cmdF n 2 62 62 == 1 && s.dreqTaken (s.cmdF n 2 60 60) (s.cmdF n 2 59 56))

/-- Declares a ring: its context is made resident first. None where every resident context is pinned: the command is not yet
accepted. -/
def State.declareRing (s : State) (n c : Nat) : Option State :=
  match s.ensureResident c with
  | (_, false) => none
  | (t, true) =>
    match (List.range 64).find? fun k => t.tab (oRing k) 63 63 == 0, t.slotOf c with
    | some k, some i => some (t.enterRing n k i)
    | _, _ => some (t.outcome n 5 2)

/-- `RING_DECLARE`. -/
def execRingDeclare (n : Nat) (s : State) : Host.Outcome State Fault Refusal :=
  .next (s.runCmd opcRingDeclare n fun t =>
    let c := t.cmdF n 1 9 0
    let ccnt := (t.boundOf c).ccnt
    if !t.isBound c ∨ ccnt ≤ t.cmdF n 1 27 16 ∨ ccnt ≤ t.cmdF n 1 43 32 then t.outcome n 10 1
    else if t.cmdF n 2 31 16 = 0 then t.removeRing n c
    else if !t.ringRange n c then t.outcome n 5 2
    else if t.ringBusy n c then t.outcome n 11 3
    else (t.declareRing n c).getD s)

/-! ## Power (R252, R255, R256, R266) -/

/-- A slice mask names an absent slice. -/
def State.absentSlices (s : State) (mask : Nat) : Bool := decide (2 ^ s.build.slices ≤ mask)

/-- `PWR_ARM`. -/
def execPwrArm (n : Nat) (s : State) : Host.Outcome State Fault Refusal :=
  .next (s.runCmd opcPwrArm n fun s =>
    let t1 := s.cmdF n 1 15 0
    let t2 := s.cmdF n 1 31 16
    if (t1 ≠ 0 ∧ t2 ≠ 0 ∧ t2 ≤ t1) ∨ s.absentSlices (s.cmdF n 1 39 32) then s.outcome n 5 1
    else ((s.setReg oArm (BitVec.ofNat 64 (s.cmdW n 1))).setFld oIdle 31 0 0).outcome n 0 2)

/-- `PWR_STATE`: the entry begins; its reply follows at E4, or at its abandoning. -/
def execPwrState (n : Nat) (s : State) : Host.Outcome State Fault Refusal :=
  .next (s.runCmd opcPwrState n fun s =>
    let t := s.cmdF n 1 3 0
    let mask := s.cmdF n 1 39 32
    if 3 < t ∨ s.absentSlices mask then s.outcome n 5 1
    else if t = 0 ∨ t = s.ps then s.outcome n 0 2
    else if s.pw.entry.isSome ∨ !s.portsQuiet false ∨ !s.idleUnits then s.outcome n 11 3
    else s.beginEntry t (some n) mask)

/-- The six positions of a `PRIO` order are distinct values from 0 to 5. -/
def prioOk (prio : Nat) : Bool :=
  (List.range 6).all fun v => (List.range 6).any fun c => fld prio (3 * c + 2) (3 * c) == v

/-- `PWR_CAP`. -/
def execPwrCap (n : Nat) (s : State) : Host.Outcome State Fault Refusal :=
  .next (s.runCmd opcPwrCap n fun s =>
    let w := s.cmdF n 1 7 0
    if w < 40 ∨ 170 < w ∨ !prioOk (s.cmdF n 1 25 8) then s.outcome n 5 1
    else (s.setReg oCap (BitVec.ofNat 64 (s.cmdW n 1))).outcome n 0 2)

/-- FLOOR ≤ PREF ≤ CEIL for each of the nine domains of a definition. -/
def phaseOk (a b : Nat) : Bool :=
  (List.range 9).all fun d =>
    let f := if d < 7 then fld a (9 * d + 8) (9 * d) else fld b (9 * (d - 7) + 8) (9 * (d - 7))
    decide (fld f 5 3 ≤ fld f 2 0 ∧ fld f 2 0 ≤ fld f 8 6)

/-- `PHASE_DEFINE`. -/
def execPhaseDefine (n : Nat) (s : State) : Host.Outcome State Fault Refusal :=
  .next (s.runCmd opcPhaseDefine n fun s =>
    let k := s.cmdF n 1 7 0
    if 15 < k ∨ !phaseOk (s.cmdW n 2) (s.cmdW n 3) then s.outcome n 5 1
    else
      (((s.setReg (oPhaseA k) (BitVec.ofNat 64 (s.cmdW n 2))).setReg (oPhaseB k) (BitVec.ofNat 64 (s.cmdW n 3))).retarget).outcome n 0 2)

/-- A domain starts afresh in its phase: neither lowered nor boosted. -/
def Dom.restart (q : Dom) : Dom := { q with lowTurns := 0, lowered := 0, boostTurns := 0, boosted := 0 }

/-- `PHASE_SET`. -/
def execPhaseSet (n : Nat) (s : State) : Host.Outcome State Fault Refusal :=
  .next (s.runCmd opcPhaseSet n fun s =>
    let k := s.cmdF n 1 7 0
    if 15 < k then s.outcome n 5 1
    else if s.pw.entry.isSome then s.outcome n 11 2
    else
      let s := foldState (fun s d => if s.locked d then s else s.modDom d Dom.restart) s.domains (s.setFld oPwrStat 51 48 k)
      let s := s.retarget
      { s with pw := { s.pw with phaseCmd := some n } }.answerPower)

/-- Slices of a domain mask. -/
def sliceCount (mask : Nat) : Nat := countUpTo 8 fun sl => bitAt mask (1 + sl)

/-- Check 1 of R256. -/
def State.lockRange (s : State) (mask op : Nat) (unlock : Bool) : Bool :=
  decide (2 ^ (s.build.slices + 1) ≤ mask)
  || s.domains.any (fun d => bitAt mask d && decide (s.opMax d < op))
  || (!unlock && decide (4 < sliceCount (mask ||| s.field oLock 8 0)))

/-- Check 2 of R256. -/
def State.lockBusy (s : State) (mask op : Nat) (unlock : Bool) : Bool :=
  s.pw.entry.isSome
  || (!unlock && (decide (mask &&& s.field oLock 8 0 ≠ 0) || (s.field oLock 8 0 != 0 && s.field oLock 18 16 != op)))

/-- Sets the locked domains and their point: 0 while none is locked. -/
def State.setLock (s : State) (mask op : Nat) : State :=
  s.setReg oLock (BitVec.ofNat 64 (if mask = 0 then 0 else op * 2 ^ 16 + mask))

/-- `DOMAIN_LOCK`. -/
def execDomainLock (n : Nat) (s : State) : Host.Outcome State Fault Refusal :=
  .next (s.runCmd opcDomainLock n fun s =>
    let mask := s.cmdF n 1 8 0
    let op := s.cmdF n 1 18 16
    let unlock := s.cmdF n 1 24 24 == 1
    let held := s.field oLock 8 0
    if s.lockRange mask op unlock then s.outcome n 5 1
    else if s.lockBusy mask op unlock then s.outcome n 11 2
    else
      let s := foldState (fun s d => if bitAt mask d then s.modDom d Dom.restart else s) s.domains s
      if unlock then ((s.setLock (held - (held &&& mask)) (s.field oLock 18 16)).retarget).outcome n 0 3
      else
        let s := (s.setLock (held ||| mask) op).retarget
        { s with pw := { s.pw with lockCmd := some (n, mask) } }.answerPower)

/-! ## Test, checker mode, retirement (R282, R231, R230) -/

/-- `TEST_RUN`: the run begins; its shavings follow, and its reply at their end. -/
def execTestRun (n : Nat) (s : State) : Host.Outcome State Fault Refusal :=
  .next (s.runCmd opcTestRun n fun s =>
    let lb := s.cmdF n 1 9 0
    let sl := sliceOf lb
    if s.nBanks ≤ lb ∨ s.dead lb then s.outcome n 5 1
    else if (s.slice sl).migr.isSome ∨ (s.slice sl).hold ∨ !s.btSlot (groupOf lb) ∨ s.field oBtCfg 15 0 = 0 then s.outcome n 11 2
    else s.modSlice sl fun q =>
      { q with test := some { cmd := n, lb := lb, cal := s.cmdF n 1 16 16 == 1, idx := 0, words := 0, hard := false } })

/-- `CHECKER_MODE`. -/
def execCheckerMode (n : Nat) (s : State) : Host.Outcome State Fault Refusal :=
  .next (s.runCmd opcCheckerMode n fun s =>
    let q := s.port 12
    if q.outR ≠ 0 ∨ q.outA ≠ 0 ∨ q.inq ≠ [] then s.outcome n 11 1
    else (s.setReg oChk (BitVec.ofNat 64 (s.cmdF n 1 0 0))).outcome n 0 2)

/-- `BANK_RETIRE`: without a free spare the trigger is noted beside its `RANGE` (R226, log 61). Otherwise the migration begins; its reply follows at its switch or its abort. -/
def execBankRetire (n : Nat) (s : State) : Host.Outcome State Fault Refusal :=
  .next (s.runCmd opcBankRetire n fun s =>
    let lb := s.cmdF n 1 9 0
    let sl := sliceOf lb
    if s.nBanks ≤ lb ∨ s.dead lb then s.outcome n 5 1
    else match s.freeSpare sl with
      | none => (s.noteNoSpare lb).outcome n 5 1
      | some spare =>
        if (s.slice sl).migr.isSome ∨ (s.slice sl).hold ∨ !s.btSlot (groupOf lb) then s.outcome n 11 2
        else s.startMigration lb spare (some n))

/-! ## The pair (R202, R210) -/

/-- A twin region is defined. -/
def State.twinDefined (s : State) : Bool := (List.range 256).any fun n => s.rgnValid n && s.rgnTwin n

/-- `TWIN_BIND`: a bind waits for its match; an unbind dissolves the pair here and asks the peer to. -/
def execTwinBind (n : Nat) (s : State) : Host.Outcome State Fault Refusal :=
  .next (s.runCmd opcTwinBind n fun s =>
    let peer := s.cmdF n 1 14 0
    let unbind := s.cmdF n 1 16 16 == 1
    let bound := s.twin != 0
    if !s.hasPort 11 ∨ !s.tp.link.up then s.outcome n 12 1
    else if (!unbind && bound) ∨ (unbind && s.twinDefined) then s.outcome n 11 2
    else if unbind then
      (if bound then s.unbind.sendControl s.peer 0 (bytesLE 8 msgUnbind) else s).outcome n 0 4
    else { s with tp := { s.tp with binding := some (n, peer, s.turn) } }.sendControl peer 0 (s.bindPayload 1))

/-- The peer has not issued a matching `TWIN_BIND` within 1,024 turns (R202). -/
def execTwinBindTimeout (s : State) : Host.Outcome State Fault Refusal :=
  .next (match s.tp.binding with
    | none => s
    | some (n, peer, t) => if s.coreRuns 0 ∧ t + 1024 ≤ s.turn then s.bindNow n peer false else s)

/-- `TWIN_RESYNC`: `STATE` RESYNC, and the peer is asked for its dirty map (Table 9.11 steps 1 and 2). -/
def execTwinResync (n : Nat) (s : State) : Host.Outcome State Fault Refusal :=
  .next (s.runCmd opcTwinResync n fun s =>
    if s.twin = 0 ∨ !s.tp.link.up then s.outcome n 12 1
    else if s.twin = twinResync ∨ s.tp.resync.isSome then s.outcome n 11 2
    else
      let q : Resync := { cmd := some n, chunks := List.range (2 * s.build.slices), units := [], line := 0, copied := 0, failed := false }
      { s.setFld oTwinStat 63 62 twinResync with tp := { s.tp with resync := some q } }.sendControl s.peer 1 (bytesLE 8 msgDirty))

/-- Every dirty unit is copied: both maps are cleared and `STATE` is UP, or the resync has failed (Table 9.11 step 4). -/
def execResyncComplete (s : State) : Host.Outcome State Fault Refusal :=
  .next (match s.tp.resync with
    | none => s
    | some q =>
      if !s.coreRuns 0 ∨ q.chunks ≠ [] ∨ q.units ≠ [] ∨ s.resyncBusy then s
      else if q.failed then s.goDown.settleAll
      else
        let t := { s.setFld oTwinStat 63 62 twinUp with tp := { s.tp with resync := none, dirty := [] } }
        let t := t.sendControl t.peer 0 (t.bindPayload 4)
        match q.cmd with
        | some n => t.reply n 0 0x13 [q.copied]
        | none => t)

/-! ## Fencing, partition reset, slice reset (R283, R291 to R298) -/

/-- A fault command names a port that is present, CP apart. -/
def State.faultPort (s : State) (p : Nat) : Bool := decide (p ≤ 11) && s.hasPort p

/-- `PORT_FENCE`: the reply follows in `FENCE_DRAINED`. -/
def execPortFence (n : Nat) (s : State) : Host.Outcome State Fault Refusal :=
  .next (s.runCmd opcPortFence n fun s =>
    let p := s.cmdF n 1 3 0
    if !s.faultPort p then s.outcome n 5 1
    else if (s.port p).fence ≠ .free then s.outcome n 11 2
    else
      let s := (s.fencePort p 1).settleAll
      { s with fw := { s.fw with fencing := s.fw.fencing ++ [(n, p)] } })

/-- The closes of an entry that a partition reset has closed are answered `BUSY`: the entry is not valid any more (R125, R126,
log 38). -/
def State.closesOver (s : State) (i : Nat) : State :=
  foldState (fun s p =>
    foldState (fun s (r : Req) =>
      if r.phase = .closing ∧ hOpc r.h = opRangeClose ∧ fld (hSid r.h) 7 0 = i ∧ r.ans.isNone then (s.answer p r.uid 11 0).settle p
      else s) (s.port p).reqs s) [0, 1, 2, 3, 4, 5, 6, 7, 8, 9] s

/-- Removes a port's waits, ranges and trackers, and what its kind of port holds besides (Table 13.2 step P2). -/
def State.clearPort (s : State) (p : Nat) : State :=
  let s := { s with waiters := s.waiters.filter fun w => w.port != p }
  let s := foldState (fun s i => if s.sbValid i ∧ s.tab (oSbEnt i) 62 59 = p then (s.sbClose i true 13).closesOver i else s) (List.range 256) s
  let s := s.closeStreams p
  let s := if p = 8 ∨ p = 9 then
      foldState (fun s k =>
        if s.tab (oRing k) 63 62 = 3 ∧ s.tab (oRing k) 60 60 = p - 8 then { s with marks := tset s.marks k (s.ringSpan k).1 } else s)
        (List.range 64) s
    else s
  if p = 10 then
    let s := foldState (fun s (w : Sent) =>
      let s := match w.sig with
        | some u => s.answer w.port u 3 0
        | none => s
      (s.packetAnswered w 3).settle w.port) s.rp.sendBuf s.dropRpHeld
    { s with rp := { s.rp with recs := [] } }
  else if p = 11 then s.goDown.settleAll
  else s

/-- Resets a fenced port's chuck and sets its `HOLD` (Table 13.2 step P3). -/
def State.resetChuck (s : State) (p : Nat) : State :=
  let f := (s.port p).fence
  let s := s.setPort p { Port.fresh p with fence := f }
  let s := if p = 10 ∨ p = 11 then
      let l := s.link (p == 11)
      s.setLink (p == 11) { l with rxCrd := if l.up then 64 else 0 }
    else s
  s.setFld (oProg p) 59 59 1

/-- Steps P2 to P4 of a partition reset. -/
def State.finishPartition (s : State) (n p : Nat) : State :=
  let s := s.keepFault 4 p 0 0 (s.field (oProg p) 63 60)
  ((s.clearPort p).resetChuck p).settleAll.outcome n 0 2

/-- The command that waits for a port to be fenced goes on: `PORT_FENCE` is answered, `RESET_PARTITION` resets. -/
def State.fenceDone (s : State) (p : Nat) : State :=
  let w := s.fw.fencing.filter fun e => e.2 == p
  let s := { s with fw := { s.fw with fencing := s.fw.fencing.filter fun e => e.2 != p } }
  foldState (fun s (e : Nat × Nat) =>
    if s.cmdOpc e.1 = opcResetPartition then s.finishPartition e.1 p else s.outcome e.1 0 3) w s

/-- Everything of a fenced port has been answered: `STAT.FENCED` reads 1 (R291). -/
def execFenceDrained (p : Nat) (s : State) : Host.Outcome State Fault Refusal :=
  .next (match (s.port p).fence with
    | .draining r =>
      if (s.port p).outR = 0 ∧ (s.port p).outA = 0 then
        let s := s.modPort p fun q => { q with fence := .fenced r }
        if s.coreRuns 0 then s.fenceDone p else s
      else s
    | _ => s)

/-- `PORT_UNFENCE`: after a partition reset the credits are those of Table 3.9 again and `HOLD` is 0. -/
def execPortUnfence (n : Nat) (s : State) : Host.Outcome State Fault Refusal :=
  .next (s.runCmd opcPortUnfence n fun s =>
    let p := s.cmdF n 1 3 0
    if !s.faultPort p then s.outcome n 5 1
    else if (s.port p).fence = .free then s.outcome n 11 2
    else
      let s := if s.bit (oProg p) 59 then
          s.modPort p fun q => { q with reqCrd := (Port.fresh p).reqCrd, wdCrd := (Port.fresh p).wdCrd }
        else s
      let s := (s.modPort p fun q => { q with fence := .free }).setFld (oProg p) 63 59 0
      (if isPartner p then (s.event p 5 0 0 0).sendEvents p else s).outcome n 0 3)

/-- `RESET_PARTITION`: step P1; the rest follows once the port is fenced. -/
def execResetPartition (n : Nat) (s : State) : Host.Outcome State Fault Refusal :=
  .next (s.runCmd opcResetPartition n fun s =>
    let p := s.cmdF n 1 3 0
    if !s.faultPort p then s.outcome n 5 1
    else match (s.port p).fence with
      | .fenced _ => s.finishPartition n p
      | .draining _ => { s with fw := { s.fw with fencing := s.fw.fencing ++ [(n, p)] } }
      | .free =>
        let s := (s.fencePort p 4).settleAll
        { s with fw := { s.fw with fencing := s.fw.fencing ++ [(n, p)] } })

/-- `RESET_SLICE`: a recovery starts, or waits for a place, or one already there answers the command; the reply follows in
`RECOVERY_COMPLETE`. -/
def execResetSlice (n : Nat) (s : State) : Host.Outcome State Fault Refusal :=
  .next (s.runCmd opcResetSlice n fun s =>
    let sl := s.cmdF n 1 3 0
    let recal := s.cmdF n 1 8 8 == 1
    if s.build.slices ≤ sl then s.outcome n 5 1
    else
      let s := s.keepFault 6 0 sl 0 (s.reg oRstFault).toNat
      match (s.slice sl).recov with
      | some r => s.modSlice sl fun q =>
          { q with recov := some { r with cmd := some n, again := r.again || r.running, restarted := r.restarted && !r.running,
                                          recal := r.recal || recal } }
      | none => ((s.holdSlice sl).startRecovery sl recal (some n)).settleAll)

end Sys2Proof.Machine
end

