-- ==== Sys2Proof/Machine/HostRegs.lean ====
section
/-! DEFINITION. The host's accesses to the register window (§0.5, chapter 15): what a register reads as, what a write does, and
one meaning for each kind of access. -/
namespace Sys2Proof.Machine

/-! ## Presence (R4, R330) -/

/-- The union of the `w`-bit fields `i` of `n` that are named, `w` bits apart from bit `o` on. -/
def unitFields (o w n : Nat) (f : Nat → Bool) : Nat :=
  ((List.range n).filter f).foldl (fun m i => m + (2 ^ w - 1) * 2 ^ (o + w * i)) 0

/-- The bits of register `i` of a row that belong to units this build has. -/
def State.present (s : State) (r : RegRow) (i : Nat) : Nat :=
  let all : Nat := 2 ^ 64 - 1
  let whole (b : Bool) : Nat := if b then all else 0
  match r.unit with
  | .always => all
  | .port => whole (s.hasPort i)
  | .slice => whole (decide (i < s.build.slices))
  | .group => whole (decide (i < s.nGroups))
  | .groupBits => 2 ^ s.nGroups - 1
  | .bank => whole (decide (i < s.nBanks))
  | .bankCe => unitFields 0 16 4 fun k => decide (4 * i + k < s.nPhys)
  | .rp => whole (s.hasPort 10)
  | .domain => whole (s.hasDom i)
  | .trim => unitFields 0 4 16 fun k => decide (16 * i + k < s.nPhys)
  | .domOps => unitFields 0 3 9 s.hasDom + unitFields 32 3 9 s.hasDom
  | .domAge => unitFields 0 4 9 s.hasDom
  | .domOp => unitFields 0 3 9 s.hasDom
  | .phaseA => unitFields 0 9 7 s.hasDom
  | .phaseB => unitFields 0 9 2 fun k => s.hasDom (7 + k)

/-! ## Interrupts (Tables 15.5, 15.6) -/

/-- A source: its index, its register and, for each line, the bits that assert it. -/
structure IrqSource where
  ix : Nat
  off : Nat
  err : Nat
  cmd : Nat
  pwr : Nat
  hang : Nat
  deriving DecidableEq, Repr

/-- The sources of Table 15.5. -/
def irqSources : List IrqSource :=
  [⟨0, oGlbErr, 7, 0, 0, 0x100⟩, ⟨1, oTrip, 2 ^ 40, 0, 2 ^ 63 + 2 ^ 32, 0⟩, ⟨2, oHangPorts, 0, 0, 0, 0x1FFF⟩,
   ⟨3, oHangSlots, 0, 0, 0, 2 ^ 64 - 1⟩, ⟨4, oRstFault, 0x3FFFFFF, 0, 0, 0⟩, ⟨5, oCmdStat, 4, 3, 0, 0⟩, ⟨6, oSlotStat, 1, 0, 0, 0⟩,
   ⟨7, oSyncErr, 15, 0, 0, 0⟩, ⟨8, oAccErr, 7, 0, 0, 0⟩, ⟨9, oRmtErr, 0x3F, 0, 0, 0⟩, ⟨10, oTwinErr, 7, 0, 0, 0⟩,
   ⟨11, oIntErr, 0x3FFF, 0, 0, 0⟩, ⟨12, oNote, 0, 0, 0x7FD, 0⟩, ⟨13, oAgemonNote, 0, 0, 0x101FF, 0⟩]
  ++ (List.range 13).map fun (p : Nat) => ⟨16 + p, oPErr p, 0x1F, 0, 0, 0⟩

/-- Bits of a source that are set and enabled. -/
def State.irqBits (s : State) (q : IrqSource) : Nat := (s.reg q.off).toNat &&& (s.reg (oIen q.ix)).toNat

/-- `GLB.IRQ_PEND`. -/
def State.irqPend (s : State) : Nat :=
  (irqSources.filter fun q => decide (s.irqBits q &&& (q.err ||| q.cmd ||| q.pwr ||| q.hang) ≠ 0)).foldl (fun m q => m + 2 ^ q.ix) 0

/-- `GLB.IRQ_LINE` (R339). -/
def State.irqLine (s : State) : Nat :=
  let on (f : IrqSource → Nat) : Nat := b2n (irqSources.any fun q => decide (s.irqBits q &&& f q ≠ 0))
  (s.reg oIrqForce).toNat % 16 ||| (on (·.err) + 2 * on (·.cmd) + 4 * on (·.pwr) + 8 * on (·.hang))

/-! ## Fields that show the block's state -/

/-- `PORT[p].CREDIT` (Table 3.13, R49). -/
def State.creditReg (s : State) (p : Nat) : Nat :=
  let q := s.port p
  let wd := if p = 10 ∨ p = 11 then (s.link (p == 11)).rxCrd else q.wdCrd
  wd % 256 * 2 ^ 24 + q.reqCrd % 256 * 2 ^ 16 + wdCredits p * 2 ^ 8 + reqCredits p

/-- `PORT[p].STAT` (Table 3.14). -/
def State.statReg (s : State) (p : Nat) : Nat :=
  let q := s.port p
  let f := match q.fence with
    | .fenced _ => 1
    | _ => 0
  f * 2 ^ 32 + q.outA % 2 ^ 16 * 2 ^ 16 + q.outR % 2 ^ 16

/-- `PORT[p].STRM[k]` (Table 6.9). -/
def State.strmReg (s : State) (p k : Nat) : Nat :=
  let t := (s.port p).stream k
  if t.isOpen then 2 ^ 63 + t.depth % 64 * 2 ^ 56 + t.lineCount % 1024 * 2 ^ 32 + t.next % 2048 * 2 ^ 16 + t.gate else 0

/-- Registers of a port block. -/
def State.portShown (s : State) (p o : Nat) (v : Word) : Word :=
  if o = 0x10 then BitVec.ofNat 64 (s.creditReg p)
  else if o = 0x18 then BitVec.ofNat 64 (s.statReg p)
  else if 0x78 ≤ o ∧ o ≤ 0x90 then BitVec.ofNat 64 (s.strmReg p ((o - 0x78) / 8))
  else v

/-- Bits of `SLOT.DRAINED`: frozen groups that hold nothing. -/
def State.drainedReg (s : State) : Nat :=
  ((List.range s.nGroups).filter fun g => s.frozen g && s.drained g).foldl (fun m g => m + 2 ^ g) 0

/-- Registers of the slot-table block. -/
def State.slotShown (s : State) (off : Nat) (v : Word) : Word :=
  if off = oDrained then BitVec.ofNat 64 s.drainedReg
  else if off = oTime then BitVec.ofNat 64 (s.turn % 2 ^ 52 * 4096 + s.cyc)
  else if oGrp 0 ≤ off ∧ off < oGrp 32 then wput v 6 0 (s.group ((off - oGrp 0) / 8)).parked.length
  else v

/-- `SYNC.RING[k].OUT`: pulses outstanding (R158). -/
def State.ringOut (s : State) (k : Nat) : Nat :=
  let b := s.tab (oRing k) 15 8
  if s.tab (oRing k) 63 62 = 3 ∧ b ≠ 0 then (s.mark k - (s.ringSpan k).1 + b - 1) / b else 0

/-- `ACC.FILT_VIEW`. -/
def State.filtView (s : State) : Nat :=
  let sel := s.field oFiltSel 7 0
  match tfind s.filters sel with
  | some f => 2 ^ 63 + s.tab (oCtxt (sel / 4) 0) 57 48 * 2 ^ 48 + f.tile % 2 ^ 16 * 2 ^ 32 + popcount 1024 f.failed.toNat * 2 ^ 16
      + popcount 1024 f.applied.toNat
  | none => s.tab (oCtxt (sel / 4) 0) 57 48 * 2 ^ 48

/-- Registers of the sync, accumulate, scoreboard, remote and twin blocks. -/
def State.syncShown (s : State) (off : Nat) (v : Word) : Word :=
  if off < oRoute 0 then
    let i := (off - oCtxt 0 0) / 0x20
    if wfld (s.reg (oCtxt i 0)) 63 63 = 0 then v
    else if off % 0x20 = 0 then wput v 62 62 (b2n (s.pinned i))
    else if off % 0x20 = 0x18 then wput v 63 48 (min (s.waiterCount i) 0xFFFF)
    else v
  else if oRing 0 ≤ off ∧ off < oRing 64 then wput v 7 0 (s.ringOut ((off - oRing 0) / 8))
  else if off = oSyncStat then
    ((wput v 41 32 s.timedQ.length |> fun v => wput v 27 16 s.waiters.length) |> fun v => wput v 6 0 s.residents.length)
  else if off = oFtime then s.ftime
  else if off = oFiltView then BitVec.ofNat 64 s.filtView
  else if off = oSbStat then wput v 8 0 s.sbOpen
  else if off = oRmtStat then wput (wput v 9 0 s.rp.sendBuf.length) 40 32 s.rp.batches.length
  else if off = oTwinStat then s.twinStat
  else if off = oTwinOut then wput v 10 0 s.mirrorsOut
  else v

/-- Registers of the integrity and power blocks. -/
def State.restShown (s : State) (off : Nat) (v : Word) : Word :=
  if off = oElogW0 then (s.elog.head?.map Finding.w0).getD 0
  else if off = oElogW1 then (s.elog.head?.map Finding.w1).getD 0
  else if off = oElogStat then wput v 6 0 s.elog.length
  else if off = oPwrStat then wput v 47 40 (min s.pw.stack.length 255)
  else v

/-- `CCDBG[k].STAT` (Table 15.17): what a core executes is Secen's or the boot ROM's own. -/
def State.coreStat (s : State) (k : Nat) : Word :=
  let rom := k == 0 && decide (s.boot ≤ bootCheck)
  let started := decide (bootInit ≤ s.boot) || (s.boot == bootFail && s.field oBootStat 59 56 == 7) || k == 0
  BitVec.ofNat 64 (b2n (started && Config.coreRuns s.free k) * 2 ^ 63 + b2n rom * 2 ^ 62 + (Config.corePc s.free k).toNat)

/-- `CCDBG[k].MDATA`: before the cores start, what the host loaded; afterwards Secen's own data. -/
def State.coreData (s : State) (k : Nat) : Word :=
  let a := s.field (oDbgMaddr k) 17 3
  if bootInit ≤ s.boot then Config.coreWord s.free k a
  else BitVec.ofNat 64 (natLE ((List.range 8).map fun (i : Nat) => tget 0 s.fw.mem (2 ^ 18 * k + 8 * a + i)))

/-- Registers of the control-core debug block. -/
def State.coreShown (s : State) (off : Nat) (v : Word) : Word :=
  let k := (off - oDbgStat 0) / 0x100
  if off % 0x100 = 0 then s.coreStat k else if off % 0x100 = 0x18 then s.coreData k else v

/-- The register at an assigned offset as it stands, absent and reserved bits apart. -/
def State.shown (s : State) (off : Nat) : Word :=
  let v := s.reg off
  if off = oIdVersion then BitVec.ofNat 64 s.idVersion
  else if off = oIdConfig then BitVec.ofNat 64 s.idConfig
  else if off = oIdInstance then BitVec.ofNat 64 s.iid
  else if off = oIrqLine then BitVec.ofNat 64 s.irqLine
  else if off = oIrqPend then BitVec.ofNat 64 s.irqPend
  else if off = oCmdStat then wput v 38 32 s.cmdsOut
  else if off < 0x2000 then v
  else if off < 0x4000 then s.portShown ((off - 0x2000) / 0x100) (off % 0x100) v
  else if off < 0x6000 then s.slotShown off v
  else if off < 0x10000 then v
  else if off < 0x14000 then s.syncShown off v
  else if off < 0x20000 then s.restShown off v
  else s.coreShown off v

/-- What a host read of an offset returns (R9, R329, R330). -/
def State.readReg (s : State) (off : Nat) : Word :=
  match regRow off with
  | none => 0
  | some (r, i) => s.shown off &&& BitVec.ofNat 64 ((r.ro ||| r.rw ||| r.st ||| r.rc ||| r.w1s) &&& s.present r i)

/-! ## Writes (R9 to R11, R329 to R332) -/

/-- `GLB.ERR.RSVD_WR`. -/
def State.rsvd (s : State) : State := s.setBit oGlbErr 0

/-- A field that keeps its old value where the written one is a reserved encoding (R10). -/
def guardField (old new : Word) (hi lo : Nat) (bad : Bool) : Word := if bad then wput new hi lo (wfld old hi lo) else new

/-- The reserved encodings of a register's fields (R10): the field and whether the value holds one. -/
def reservedField (off : Nat) (v : Word) : Nat × Nat × Bool :=
  if 0x2000 ≤ off ∧ off < 0x3000 ∧ off % 0x100 = 0xA0 then (2, 0, decide (4 < wfld v 2 0))
  else if 0x8000 ≤ off ∧ off < 0x10000 ∧ off % 0x20 = 0 then (62, 60, wfld v 62 60 == 0 || decide (5 < wfld v 62 60))
  else if oRoute 0 ≤ off ∧ off < oRoute 128 then (61, 59, decide (4 < wfld v 61 59))
  else if off = oSyncCfg then (42, 32, decide (wfld v 42 32 < 600 ∨ 2000 < wfld v 42 32))
  else if off = oIntCfg then (7, 0, decide (62 < wfld v 7 0))
  else (0, 0, false)

/-- The RW bits of a register take a written value, a reserved encoding apart. -/
def State.storeRw (s : State) (off mask : Nat) (v : Word) : State :=
  let old := s.reg off
  let m := BitVec.ofNat 64 mask
  let f := reservedField off v
  let s := if f.2.2 then s.rsvd else s
  s.setReg off (guardField old ((old &&& ~~~m) ||| (v &&& m)) f.1 f.2.1 f.2.2)

/-- A write of `CMD.POSTED` (R268, R274). -/
def State.postCommands (s : State) (v : Word) : State :=
  let n := v.toNat % 2 ^ 32
  if s.boot ≠ bootReady then s
  else if (n + 2 ^ 32 - s.posted) % 2 ^ 32 ≤ 64 ∧ (n + 2 ^ 32 - s.done) % 2 ^ 32 ≤ 64 then s.setFld oCmdPosted 31 0 n
  else s.setBit oCmdStat 2

/-- Pending swaps of the groups named; the one of a group asked for by cycle 4,079 is served at this turn's boundary (R97). -/
def State.requestSwaps (s : State) (mask : Nat) (v : Word) : State :=
  let m := v.toNat &&& mask
  let s := s.setReg oSwap (s.reg oSwap ||| BitVec.ofNat 64 m)
  if s.cyc ≤ 4079 then
    foldState (fun s g => if bitAt m g then s.modGroup g fun q => { q with swapArmed := true } else s) (List.range s.nGroups) s
  else s

/-- A write of a shadow slot table: ignored while the group's swap is pending (R97). -/
def State.writeShadow (s : State) (off : Nat) (v : Word) : State :=
  if s.bit oSwap ((off - oSlotShd 0 0) / 0x20) then s.setBit oSlotStat 0 else s.setReg off v

/-- A write of `SLOT.RANK`: 15 distinct ranks, in force from a turn boundary; any other is ignored whole (R99). -/
def State.writeRanks (s : State) (v : Word) : State :=
  let v := v &&& 0x0FFFFFFFFFFFFFFF
  let ok := (List.range 15).all fun k => (List.range 15).any fun a => wfld v (4 * a + 3) (4 * a) == k
  if !ok then s.rsvd
  else
    let s := s.setReg oRank v
    if s.cyc ≤ 4079 then { s with rank := v, rankLate := v } else { s with rankLate := v }

/-- A write of a view's header: the staged strides are committed with it (R78). -/
def State.commitView (s : State) (off mask : Nat) (v : Word) : State :=
  let s := s.storeRw off mask v
  (s.setReg (off + 8) (tget 0 s.stage (off + 8))).setReg (off + 16) (tget 0 s.stage (off + 16))

/-- The line cache of a VP is emptied, for every read accepted before as well (R133). -/
def State.flushVpc (s : State) (p : Nat) : State :=
  s.modPort p fun q => { q with vpc := [], reqs := q.reqs.map fun r =>
    { r with barred := (r.rows.flatMap fun w => w.lines.map fun l => l.la) ++ r.barred } }

/-- A write of `PORT[p].RAMP`: with `EN` 0 the allowance is 64 from then on (R253). -/
def State.writeRamp (s : State) (p : Nat) : State := if s.bit (oRamp p) 3 then s else s.setFld (oRampStat p) 54 48 64

/-- A write of `BT.CFG`: with `PERIOD` 0 and `ABORT` 1 running shavings are abandoned (R225). -/
def State.writeBtCfg (s : State) (mask : Nat) (v : Word) : State :=
  let s := s.storeRw oBtCfg mask v
  if wfld v 15 0 = 0 ∧ wfld v 17 17 = 1 then foldState (fun s sl => s.abandonShaving sl .stop) (List.range s.build.slices) s else s

/-- A host write to a register the host owns; `mask` names its RW and W1S bits that are present. -/
def State.hostOwned (s : State) (off mask : Nat) (v : Word) : State :=
  if off = oBootCtl then (if wfld v 0 0 = 1 then s.go else s)
  else if off = oCmdPosted then s.postCommands v
  else if off = oSwap then s.requestSwaps mask v
  else if oSlotShd 0 0 ≤ off ∧ off < oSlotShd 32 0 then s.writeShadow off v
  else if off = oRank then s.writeRanks v
  else if 0x8000 ≤ off ∧ off < 0x10000 then
    (if off % 0x20 = 0 then s.commitView off mask v else { s with stage := tset s.stage off (v &&& BitVec.ofNat 64 mask) })
  else if off = oElogCtl then (if wfld v 0 0 = 1 then { s with elog := s.elog.tail } else s)
  else if off = oBtCfg then s.writeBtCfg mask v
  else if off = oPwrCfg then (s.storeRw off mask v).showAvail.retarget
  else if 0x2000 ≤ off ∧ off < 0x3000 ∧ off % 0x100 = 0x60 then
    let s := s.storeRw off mask v
    if wfld v 0 0 = 1 then s.flushVpc ((off - 0x2000) / 0x100) else s
  else if 0x2000 ≤ off ∧ off < 0x2C00 ∧ off % 0x100 = 0xA0 then (s.storeRw off mask v).writeRamp ((off - 0x2000) / 0x100)
  else s.storeRw off mask v

/-- A host write to a register owned by FW or HW: the ST bits written 1 are cleared, and nothing else changes; `OWNER_WR`
set in the same write stays set (R9, R11, R332). -/
def State.clearSticky (s : State) (off st other : Nat) (v : Word) : State :=
  let s := s.setReg off (s.reg off &&& ~~~(v &&& BitVec.ofNat 64 st))
  let s :=
    if off = oGlbErr ∧ bitAt (v.toNat &&& st) 8 then s.setFld oGlbErr 19 16 0
    else if oDbgTrap 0 ≤ off ∧ bitAt (v.toNat &&& st) 63 then s.setFld off 47 32 0
    else s
  if v.toNat &&& other ≠ 0 then s.setBit oGlbErr 1 else s

/-- The register of some port blocks, at an offset of a block that does not implement it: no error (R330). -/
def otherBlock (off : Nat) : Bool :=
  decide (0x2000 ≤ off ∧ off < 0x2D00) && regRowsPort.any fun r => r.base % 0x100 == off % 0x100

/-- What a host write to an offset does. -/
def State.writeReg (s : State) (off : Nat) (v : Word) : State :=
  match regRow off with
  | none => if otherBlock off then s else s.setBit oGlbErr 2
  | some (r, i) =>
    let m := s.present r i
    if m = 0 then s
    else if r.owner = .host then s.hostOwned off ((r.rw ||| r.w1s) &&& m) v
    else s.clearSticky off (r.st &&& m) ((r.ro ||| r.rc) &&& m) v

/-! ## Accesses of the CP register path (R48, R261, R331) -/

/-- An access on the register path takes a credit, which comes back with its response; one without a credit is discarded (R48, R59). -/
def State.regAccess (s : State) (act : State → State × Word) : State :=
  if (s.port 12).regCrd = 0 then s.protoErr 12 0
  else
    let r := act (s.modPort 12 fun q => { q with regCrd := q.regCrd - 1 })
    ((r.1.drive (.reg r.2)).drive .regCrd).modPort 12 fun q => { q with regCrd := q.regCrd + 1 }

/-- A write reaches the block: it is awake, and the write is one of those that count as arrivals from outside. It takes effect with its
response, of 0 (R331). -/
def State.hostWrite (s : State) (off : Nat) (v : Word) : State :=
  if s.pins.poreset ∨ !s.awake then s else s.touch.regAccess fun s => (s.writeReg off v, 0)

/-- A write to any register without a row of its own (R331). -/
def execRegisterWrite (off : Nat) (v : Word) (s : State) : Host.Outcome State Fault Refusal := .next (s.hostWrite off v)

/-- A write of `SLOT.SWAP` (R97). -/
def execSlotSwap (v : Word) (s : State) : Host.Outcome State Fault Refusal := .next (s.hostWrite oSwap v)

/-- A write of word `w` of a group's shadow slot table (R97). -/
def execSlotShadowWrite (g w : Nat) (v : Word) (s : State) : Host.Outcome State Fault Refusal :=
  .next (if g < 32 ∧ w < 4 then s.hostWrite (oSlotShd g w) v else s)

/-- A write of `SLOT.RANK` (R99). -/
def execSlotRankWrite (v : Word) (s : State) : Host.Outcome State Fault Refusal := .next (s.hostWrite oRank v)

/-- A write of `SLOT.FREEZE` (R109). -/
def execSlotFreeze (v : Word) (s : State) : Host.Outcome State Fault Refusal := .next (s.hostWrite oFreeze v)

/-- A write of a view's header (R78). -/
def execViewHdrWrite (e : Nat) (v : Word) (s : State) : Host.Outcome State Fault Refusal :=
  .next (if e < 1024 then s.hostWrite (oView e 0) v else s)

/-- A write of a view's strides: `S34` or `S12` (R78). -/
def execViewStrideWrite (e : Nat) (s34 : Bool) (v : Word) (s : State) : Host.Outcome State Fault Refusal :=
  .next (if e < 1024 then s.hostWrite (oView e (if s34 then 16 else 8)) v else s)

/-- A write of 1 to `VPC_CTL.FLUSH`, `DISABLE` as it stands (R133). -/
def execFlush (p : Nat) (s : State) : Host.Outcome State Fault Refusal :=
  .next (if p < 13 then s.hostWrite (oVpcCtl p) (BitVec.ofNat 64 (2 * s.field (oVpcCtl p) 1 1 + 1)) else s)

/-- A write of 1 to `INT.ELOG_CTL.POP` removes the oldest entry (R234). -/
def execElogPop (s : State) : Host.Outcome State Fault Refusal := .next (s.hostWrite oElogCtl 1)

/-- `BT.CFG` is written with `PERIOD` 0 and `ABORT` 1 (R225). -/
def execBtAbort (calEn : Bool) (s : State) : Host.Outcome State Fault Refusal :=
  .next (s.hostWrite oBtCfg (BitVec.ofNat 64 (2 ^ 17 + b2n calEn * 2 ^ 16)))

/-- A write of 1 to `BOOT.CTL.GO` (R269). -/
def execBootGo (s : State) : Host.Outcome State Fault Refusal := .next (s.hostWrite oBootCtl 1)

/-- A read clears its RC fields after it returned them (R9). -/
def State.clearRead (s : State) (off : Nat) : State :=
  match regRow off with
  | none => s
  | some (r, i) =>
    let m := r.rc &&& s.present r i
    if m = 0 then s else s.setReg off (s.reg off &&& ~~~(BitVec.ofNat 64 m))

/-- A host read (R9): served in PS0, and, for the exempt offsets, in PS1 and PS2 without waking (R261). `FTIME` is sampled in the cycle of
the read, and `SYNC.FTIME` returns it (R163, R166). -/
def execReadClear (a : HostRead) (s : State) : Host.Outcome State Fault Refusal :=
  .next (if s.pins.poreset ∨ s.ps = 3 ∨ (!s.awake ∧ !exemptRead a.off) then s
    else (if exemptRead a.off then s else s.touch).regAccess fun s =>
      let s := s.sample a.ftime
      ({ s.clearRead a.off with free := s.free + 1 }, s.readReg a.off))

end Sys2Proof.Machine
end

