-- ==== Sys2Proof/Machine/Wrapper.lean ====
section
/-! DEFINITION. The IEEE 1500 wrapper (§14.8): the instructions of Table 14.9, the shifting of its registers, and the end of a
memory test. What is shifted out is recorded as driven on `WSO` (log 22). -/
namespace Sys2Proof.Machine

/-- The number a list of bits spells, the first least significant. -/
def natBits : List Bool → Nat
  | [] => 0
  | b :: bs => b2n b + 2 * natBits bs

/-- Shifts bits through the 1-bit bypass register: what it holds comes out first, the last bit stays (Table 14.9). -/
def State.shiftBypass (s : State) (wsi : List Bool) : State :=
  { s with wrap := { s.wrap with ir := 0, bypass := wsi.getLastD s.wrap.bypass } }.drive
    (.wso (natBits (s.wrap.bypass :: wsi.dropLast)))

/-- Acts on a wrapper code while `PORESET_N` is low; with it released the code acts as `WS_BYPASS`, on the bits shifted in (R323). -/
def State.wrapper (s : State) (ir : Nat) (wsi : List Bool) (act : State → State) : State :=
  if s.pins.poreset then act { s with wrap := { s.wrap with ir := ir } } else s.shiftBypass wsi

/-- `WS_BYPASS`: the bit that `WSI` carries is shifted through. -/
def execWsBypass (s : State) : Host.Outcome State Fault Refusal :=
  .next ({ s with free := s.free + 1 }.shiftBypass [(Config.wsiBits s.free).headD false])

/-- The low `n` bits of a number, least significant first. -/
def lowBits (n v : Nat) : List Bool := (List.range n).map (bitAt v)

/-- `WS_EXTEST`: the boundary register drives its signals; it captures them, is shifted out for what is shifted in, and drives that. -/
def execWsExtest (s : State) : Host.Outcome State Fault Refusal :=
  .next (
    let wsi := Config.wsiBits s.free
    let captured := Config.boundarySignals s.free
    { s with free := s.free + 1 }.wrapper 0x01 wsi fun s =>
      let s := (s.drive (.ext s.wrap.boundary)).drive (.wso (natBits captured))
      { s with wrap := { s.wrap with boundary := wsi } }.drive (.ext wsi))

/-- `WS_PRELOAD`: the boundary register is shifted out for what is shifted in; the signals do not see it. -/
def execWsPreload (wsi : List Bool) (s : State) : Host.Outcome State Fault Refusal :=
  .next (s.wrapper 0x02 wsi fun s =>
    { s with wrap := { s.wrap with boundary := wsi } }.drive (.wso (natBits s.wrap.boundary)))

/-! ## The memory test (R324) -/

/-- `TM_MBIST`: with its start bit, March C− begins on every physical bank, the slices at the point it names. -/
def execTmMbist (v : Nat) (s : State) : Host.Outcome State Fault Refusal :=
  .next (s.wrapper 0x10 (lowBits 32 v) fun s =>
    let s := { s with wrap := { s.wrap with mbist := v % 2 ^ 32 } }
    if bitAt v 7 then
      let s := foldState (fun s sl => s.setFld oOps (3 * sl + 5) (3 * sl + 3) (fld v 6 4)) (List.range s.build.slices) s
      { s with wrap := { s.wrap with running := true, done := false, pass := false, firstFail := 0, image := [], rdPtr := 0 } }
    else s)

/-- A repair entry is of a sub-array and a kind: 0 row, 1 column (Table 14.7). -/
def repairOf (pb sub kind e : Nat) : Bool := bitAt e 31 && fld e 30 21 == pb && fld e 20 17 == sub && fld e 16 16 == kind

/-- The rows (kind 0), or columns (kind 1), of a sub-array that fail under a selected background and no soft repair replaces, in
ascending order. -/
def Wrap.failing (w : Wrap) (fails : List SubFail) (kind pb sub : Nat) : List Nat :=
  let hits := (fails.filter fun f => f.pb == pb && f.sub == sub && bitAt w.mbist f.bg).flatMap fun f => f.lines
  (List.range 2048).filter fun a => hits.contains a && !(w.soft.any fun e => repairOf pb sub kind e && fld e 10 0 == a)

/-- The spare rows 0 to 3, or columns 0 and 1, of a sub-array that no soft repair uses. -/
def Wrap.sparesLeft (w : Wrap) (kind pb sub : Nat) : List Nat :=
  (List.range (if kind = 0 then 4 else 2)).filter fun i => !(w.soft.any fun e => repairOf pb sub kind e && fld e 15 14 == i)

/-- The entries that replace the failing rows, or columns, of a sub-array, as far as its spares go, and whether they cover all. -/
def Wrap.allocate (w : Wrap) (fails : List SubFail) (kind pb sub : Nat) : List Nat × Bool :=
  let bad := w.failing fails kind pb sub
  let free := w.sparesLeft kind pb sub
  ((bad.zip free).map fun e => 2 ^ 31 + pb * 2 ^ 21 + sub * 2 ^ 17 + kind * 2 ^ 16 + e.2 * 2 ^ 14 + e.1, decide (bad.length ≤ free.length))

/-- Whether a sub-array fails in no way that its rows and columns could replace, under a selected background. -/
def Wrap.failsWhole (w : Wrap) (whole : List (Nat × Nat × Nat)) (pb sub : Nat) : Bool :=
  whole.any fun e => e.2.1 == pb && e.2.2 == sub && bitAt w.mbist e.1

/-- Bank and sub-array of each part named as failing, in ascending order. -/
def failedSubs (rows cols : List SubFail) (whole : List (Nat × Nat × Nat)) : List (Nat × Nat) :=
  let named := (rows ++ cols).map (fun f => f.pb * 16 + f.sub) ++ whole.map fun e => e.2.1 * 16 + e.2.2
  ((List.range 8448).filter named.contains).map fun k => (k / 16, k % 16)

/-- The memory test ends: spares are allocated for each sub-array, rows and columns alike, and the image is held. `rows` and `cols` are
what the march found bad under each background, and `whole` the sub-arrays that fail beyond rows and columns (log 15); the first failing
bank is the lowest (log 22). -/
def execMbistComplete (rows cols : List SubFail) (whole : List (Nat × Nat × Nat)) (s : State) : Host.Outcome State Fault Refusal :=
  .next (if s.wrap.running ∧ s.pins.poreset then
      let w := s.wrap
      let subs := failedSubs rows cols whole
      let parts := subs.flatMap fun e => [w.allocate rows 0 e.1 e.2, w.allocate cols 1 e.1 e.2]
      let lost := subs.any fun e => w.failsWhole whole e.1 e.2
      let bad := subs.find? fun e =>
        w.failsWhole whole e.1 e.2 || !(w.failing rows 0 e.1 e.2).isEmpty || !(w.failing cols 1 e.1 e.2).isEmpty
      { s with wrap := { w with running := false, done := true, pass := !lost && parts.all fun e => e.2,
                                firstFail := (bad.map fun e => e.1).getD 0, image := parts.flatMap fun e => e.1, rdPtr := 0 } }
    else s)

/-- `TM_STATUS`. -/
def execTmStatus (s : State) : Host.Outcome State Fault Refusal :=
  .next (s.wrapper 0x11 [] fun s => s.drive (.wso (b2n s.wrap.done + 2 * b2n s.wrap.pass + 4 * s.wrap.firstFail)))

/-- `TM_REPAIR_RD`: the next entry of the computed image, 0 after the last. -/
def execTmRepairRd (s : State) : Host.Outcome State Fault Refusal :=
  .next (s.wrapper 0x12 [] fun s =>
    { s with wrap := { s.wrap with rdPtr := s.wrap.rdPtr + 1 } }.drive (.wso (s.wrap.image.getD s.wrap.rdPtr 0)))

/-- `TM_REPAIR_LD`: a soft repair until `PORESET_N` is released. -/
def execTmRepairLd (e : Nat) (s : State) : Host.Outcome State Fault Refusal :=
  .next (s.wrapper 0x13 (lowBits 32 e) fun s => { s with wrap := { s.wrap with soft := s.wrap.soft ++ [e % 2 ^ 32] } })

/-- Addresses of the fuse words in the order of R320. -/
def State.fuseOrder (s : State) : List Nat :=
  fuseReads [(0, tget 0 s.fuse.words 0)]

/-- `TM_FUSE_RD`: the next fuse word, `PORESET_N` low or not; what follows the last is free (log 30). -/
def execTmFuseRd (s : State) : Host.Outcome State Fault Refusal :=
  .next (
    let w : Nat := match s.fuseOrder[s.fuse.rdPtr]? with
      | some a => tget 0 s.fuse.words a
      | none => (Config.fuseAfterLast s.free).toNat
    { s with fuse := { s.fuse with rdPtr := s.fuse.rdPtr + 1 }, free := s.free + 1, wrap := { s.wrap with ir := 0x14 } }.drive (.wso w))

end Sys2Proof.Machine
end

