-- ==== Sys2Proof/Machine/Dispatch.lean ====
section
/-! DEFINITION. The meaning of each command: one arm for each constructor. -/
namespace Sys2Proof.Machine

/-- The effect of a command on everything but the queue. -/
def exec (i : Instr) (s : State) : Host.Outcome State Fault Refusal :=
  match i with
  | .nop p h => Sys2Proof.Machine.execNop p h s
  | .rd p h => Sys2Proof.Machine.execRd p h s
  | .rdv p h => Sys2Proof.Machine.execRdv p h s
  | .wr p h => Sys2Proof.Machine.execWr p h s
  | .wrv p h => Sys2Proof.Machine.execWrv p h s
  | .wrp p h => Sys2Proof.Machine.execWrp p h s
  | .acc p h => Sys2Proof.Machine.execAcc p h s
  | .accx p h => Sys2Proof.Machine.execAccx p h s
  | .cntAdd p h => Sys2Proof.Machine.execCntAdd p h s
  | .cntWait p h => Sys2Proof.Machine.execCntWait p h s
  | .cntRd p h => Sys2Proof.Machine.execCntRd p h s
  | .flgSet p h => Sys2Proof.Machine.execFlgSet p h s
  | .flgClr p h => Sys2Proof.Machine.execFlgClr p h s
  | .flgWait p h => Sys2Proof.Machine.execFlgWait p h s
  | .flgTest p h => Sys2Proof.Machine.execFlgTest p h s
  | .rangeOpen p h => Sys2Proof.Machine.execRangeOpen p h s
  | .rangeClose p h => Sys2Proof.Machine.execRangeClose p h s
  | .streamOpen p h => Sys2Proof.Machine.execStreamOpen p h s
  | .streamStep p h => Sys2Proof.Machine.execStreamStep p h s
  | .streamClose p h => Sys2Proof.Machine.execStreamClose p h s
  | .inval p h => Sys2Proof.Machine.execInval p h s
  | .fence p h => Sys2Proof.Machine.execFence p h s
  | .writeDataBeat p data wen => Sys2Proof.Machine.execWriteDataBeat p data wen s
  | .hogCutoff p => Sys2Proof.Machine.execHogCutoff p s
  | .contextMiss p => Sys2Proof.Machine.execContextMiss p s
  | .accumulateGateAdmit g => Sys2Proof.Machine.execAccumulateGateAdmit g s
  | .bankGrant g trips => Sys2Proof.Machine.execBankGrant g trips s
  | .scoreboardRelease p => Sys2Proof.Machine.execScoreboardRelease p s
  | .rangeCloseInForce entry => Sys2Proof.Machine.execRangeCloseInForce entry s
  | .streamPrefetch p k => Sys2Proof.Machine.execStreamPrefetch p k s
  | .streamStepDeliver p k => Sys2Proof.Machine.execStreamStepDeliver p k s
  | .finalAdvance p => Sys2Proof.Machine.execFinalAdvance p s
  | .waitRelease p => Sys2Proof.Machine.execWaitRelease p s
  | .heldWaitAnswer p => Sys2Proof.Machine.execHeldWaitAnswer p s
  | .ringHoldApply p => Sys2Proof.Machine.execRingHoldApply p s
  | .dreqPulse k => Sys2Proof.Machine.execDreqPulse k s
  | .overflowEvent p => Sys2Proof.Machine.execOverflowEvent p s
  | .rwriteSend p => Sys2Proof.Machine.execRwriteSend p s
  | .rsigSend p ftime => Sys2Proof.Machine.execRsigSend p ftime s
  | .rwrite h data => Sys2Proof.Machine.execRwrite h data s
  | .closingPacket h data => Sys2Proof.Machine.execClosingPacket h data s
  | .batchClose b => Sys2Proof.Machine.execBatchClose b s
  | .batchTimeout b => Sys2Proof.Machine.execBatchTimeout b s
  | .rsig h data ftime => Sys2Proof.Machine.execRsig h data ftime s
  | .rsigApply ftime => Sys2Proof.Machine.execRsigApply ftime s
  | .rnack h => Sys2Proof.Machine.execRnack h s
  | .retryResend tag => Sys2Proof.Machine.execRetryResend tag s
  | .responseTimeout tag => Sys2Proof.Machine.execResponseTimeout tag s
  | .linkLost tp h => Sys2Proof.Machine.execLinkLost tp h s
  | .linkUpChange tp up => Sys2Proof.Machine.execLinkUpChange tp up s
  | .linkTxCredit tp => Sys2Proof.Machine.execLinkTxCredit tp s
  | .twrite h data => Sys2Proof.Machine.execTwrite h data s
  | .tack h => Sys2Proof.Machine.execTack h s
  | .twinRetryResend tag => Sys2Proof.Machine.execTwinRetryResend tag s
  | .twinTimeout tag => Sys2Proof.Machine.execTwinTimeout tag s
  | .tfetch h => Sys2Proof.Machine.execTfetch h s
  | .tdata h data => Sys2Proof.Machine.execTdata h data s
  | .bindMessage h data => Sys2Proof.Machine.execBindMessage h data s
  | .regionMessage h data => Sys2Proof.Machine.execRegionMessage h data s
  | .deleteMessage h data => Sys2Proof.Machine.execDeleteMessage h data s
  | .clearMessage h data => Sys2Proof.Machine.execClearMessage h data s
  | .dirtyMessage h data => Sys2Proof.Machine.execDirtyMessage h data s
  | .unbindMessage h data => Sys2Proof.Machine.execUnbindMessage h data s
  | .downMessage h data => Sys2Proof.Machine.execDownMessage h data s
  | .turnBoundary ftime sensors stopped => Sys2Proof.Machine.execTurnBoundary ftime sensors stopped s
  | .throttleUndo => Sys2Proof.Machine.execThrottleUndo s
  | .idleLowering d => Sys2Proof.Machine.execIdleLowering d s
  | .boost d => Sys2Proof.Machine.execBoost d s
  | .portHang p => Sys2Proof.Machine.execPortHang p s
  | .contextHang slot => Sys2Proof.Machine.execContextHang slot s
  | .ccHang cores => Sys2Proof.Machine.execCcHang cores s
  | .idleEntry => Sys2Proof.Machine.execIdleEntry s
  | .wakeEvent cause => Sys2Proof.Machine.execWakeEvent cause s
  | .shavingStart sl => Sys2Proof.Machine.execShavingStart sl s
  | .shavingStep sl seen => Sys2Proof.Machine.execShavingStep sl seen s
  | .retirementStart lb cause => Sys2Proof.Machine.execRetirementStart lb cause s
  | .migrationSwitch sl => Sys2Proof.Machine.execMigrationSwitch sl s
  | .sliceFault sl kind => Sys2Proof.Machine.execSliceFault sl kind s
  | .recoveryStart => Sys2Proof.Machine.execRecoveryStart s
  | .recoveryComplete sl found => Sys2Proof.Machine.execRecoveryComplete sl found s
  | .coldReset instId fuse => Sys2Proof.Machine.execColdReset instId fuse s
  | .warmReset => Sys2Proof.Machine.execWarmReset s
  | .imageCheck => Sys2Proof.Machine.execImageCheck s
  | .secenInitDone tests => Sys2Proof.Machine.execSecenInitDone tests s
  | .bootGo => Sys2Proof.Machine.execBootGo s
  | .vaLost => Sys2Proof.Machine.execVaLost s
  | .thermalTrip => Sys2Proof.Machine.execThermalTrip s
  | .vfReady => Sys2Proof.Machine.execVfReady s
  | .vfTimeout => Sys2Proof.Machine.execVfTimeout s
  | .droop d => Sys2Proof.Machine.execDroop d s
  | .droopClear d => Sys2Proof.Machine.execDroopClear d s
  | .droopLong d => Sys2Proof.Machine.execDroopLong d s
  | .ftimeBad ftime => Sys2Proof.Machine.execFtimeBad ftime s
  | .ageingSample => Sys2Proof.Machine.execAgeingSample s
  | .ageingReplan => Sys2Proof.Machine.execAgeingReplan s
  | .echo n => Sys2Proof.Machine.execEcho n s
  | .getInfo n => Sys2Proof.Machine.execGetInfo n s
  | .fwInfo n => Sys2Proof.Machine.execFwInfo n s
  | .undefinedCommand n => Sys2Proof.Machine.execUndefinedCommand n s
  | .regionDefine n => Sys2Proof.Machine.execRegionDefine n s
  | .regionDelete n => Sys2Proof.Machine.execRegionDelete n s
  | .regionClear n => Sys2Proof.Machine.execRegionClear n s
  | .regionClearDone => Sys2Proof.Machine.execRegionClearDone s
  | .windowOpen n => Sys2Proof.Machine.execWindowOpen n s
  | .windowClose n => Sys2Proof.Machine.execWindowClose n s
  | .windowCloseDone => Sys2Proof.Machine.execWindowCloseDone s
  | .ctxBind n => Sys2Proof.Machine.execCtxBind n s
  | .ctxUnbind n => Sys2Proof.Machine.execCtxUnbind n s
  | .ringDeclare n => Sys2Proof.Machine.execRingDeclare n s
  | .pwrArm n => Sys2Proof.Machine.execPwrArm n s
  | .pwrState n => Sys2Proof.Machine.execPwrState n s
  | .pwrCap n => Sys2Proof.Machine.execPwrCap n s
  | .phaseDefine n => Sys2Proof.Machine.execPhaseDefine n s
  | .phaseSet n => Sys2Proof.Machine.execPhaseSet n s
  | .domainLock n => Sys2Proof.Machine.execDomainLock n s
  | .testRun n => Sys2Proof.Machine.execTestRun n s
  | .checkerMode n => Sys2Proof.Machine.execCheckerMode n s
  | .bankRetire n => Sys2Proof.Machine.execBankRetire n s
  | .twinBind n => Sys2Proof.Machine.execTwinBind n s
  | .twinResync n => Sys2Proof.Machine.execTwinResync n s
  | .resyncComplete => Sys2Proof.Machine.execResyncComplete s
  | .portFence n => Sys2Proof.Machine.execPortFence n s
  | .fenceDrained p => Sys2Proof.Machine.execFenceDrained p s
  | .portUnfence n => Sys2Proof.Machine.execPortUnfence n s
  | .resetPartition n => Sys2Proof.Machine.execResetPartition n s
  | .resetSlice n => Sys2Proof.Machine.execResetSlice n s
  | .keepRead n => Sys2Proof.Machine.execKeepRead n s
  | .keepErase n => Sys2Proof.Machine.execKeepErase n s
  | .slotSwap v => Sys2Proof.Machine.execSlotSwap v s
  | .slotShadowWrite g w v => Sys2Proof.Machine.execSlotShadowWrite g w v s
  | .slotRankWrite v => Sys2Proof.Machine.execSlotRankWrite v s
  | .slotFreeze v => Sys2Proof.Machine.execSlotFreeze v s
  | .viewHdrWrite e v => Sys2Proof.Machine.execViewHdrWrite e v s
  | .viewStrideWrite e s34 v => Sys2Proof.Machine.execViewStrideWrite e s34 v s
  | .flush p => Sys2Proof.Machine.execFlush p s
  | .elogPop => Sys2Proof.Machine.execElogPop s
  | .btAbort calEn => Sys2Proof.Machine.execBtAbort calEn s
  | .readClear a => Sys2Proof.Machine.execReadClear a s
  | .registerWrite off v => Sys2Proof.Machine.execRegisterWrite off v s
  | .wsBypass => Sys2Proof.Machine.execWsBypass s
  | .wsExtest => Sys2Proof.Machine.execWsExtest s
  | .wsPreload wsi => Sys2Proof.Machine.execWsPreload wsi s
  | .tmMbist v => Sys2Proof.Machine.execTmMbist v s
  | .mbistComplete rows cols whole => Sys2Proof.Machine.execMbistComplete rows cols whole s
  | .tmStatus => Sys2Proof.Machine.execTmStatus s
  | .tmRepairRd => Sys2Proof.Machine.execTmRepairRd s
  | .tmRepairLd e => Sys2Proof.Machine.execTmRepairLd e s
  | .tmFuseRd => Sys2Proof.Machine.execTmFuseRd s
  | .keepDomainLoss => Sys2Proof.Machine.execKeepDomainLoss s
  | .poresetAssert => Sys2Proof.Machine.execPoresetAssert s
  | .selfTestDone => Sys2Proof.Machine.execSelfTestDone s
  | .twinBindTimeout => Sys2Proof.Machine.execTwinBindTimeout s
  | .vfReadyRelease => Sys2Proof.Machine.execVfReadyRelease s
  | .runMinute => Sys2Proof.Machine.execRunMinute s

end Sys2Proof.Machine
end

