-- ==== Sys2Proof/Safety.lean ====
section
/-! DEFINITION. What counts as a well-kept block and as a request served, in the terms the claims use: canonical memories, a legal
build, a port that takes a header, what an answer leaves as it was, the reply of a command. -/
namespace Sys2Proof.Machine

/-- Both memories are in canonical form. -/
def State.memOk (s : State) : Bool := Memory.wf s.mem && Memory.wf s.save

/-- A legal build: 2, 4, 6 or 8 slices (R2, Table 14.1), and CP present (Table 0.2). -/
def Build.ok (b : Build) : Bool := [2, 4, 6, 8].contains b.slices && bitAt b.ports 12

/-! ## Requests -/

/-- The rows of Table 3.7, each opcode with its command. -/
def requestRows : List (Nat × (Nat → Hdr → Instr)) :=
  [(opNop, .nop), (opRd, .rd), (opRdv, .rdv), (opWr, .wr), (opWrv, .wrv), (opWrp, .wrp), (opAcc, .acc), (opAccx, .accx),
   (opCntAdd, .cntAdd), (opCntWait, .cntWait), (opCntRd, .cntRd), (opFlgSet, .flgSet), (opFlgClr, .flgClr),
   (opFlgWait, .flgWait), (opFlgTest, .flgTest), (opRangeOpen, .rangeOpen), (opRangeClose, .rangeClose),
   (opStreamOpen, .streamOpen), (opStreamStep, .streamStep), (opStreamClose, .streamClose), (opInval, .inval),
   (opFence, .fence)]

/-- The rows whose rows of data lie in memory: reads, writes, accumulates. -/
def dataRows : List (Nat × (Nat → Hdr → Instr)) :=
  [(opRd, .rd), (opRdv, .rdv), (opWr, .wr), (opWrv, .wrv), (opWrp, .wrp), (opAcc, .acc), (opAccx, .accx)]

/-- Port p takes a header at once: its bundle is open, a request credit is there, no header is held before it, and no power-state
entry is under way. -/
structure State.Takes (s : State) (p : Nat) : Prop where
  isOpen : s.openPartner p = true
  credit : 0 < (s.port p).reqCrd
  inq : (s.port p).inq = []
  entry : s.pw.entry = none

/-- Port p takes a header at once and nothing of it is under way: no request, no answer, no beat due. -/
structure State.Idle (s : State) (p : Nat) : Prop extends State.Takes s p where
  reqs : (s.port p).reqs = []
  laneR : (s.port p).laneR = []
  laneA : (s.port p).laneA = []
  due : (s.port p).due = []

/-- What a request changes that an idle port has answered at once on its acknowledgement lane: its credit is back, the answer has
been driven, and nothing but the sync engine's tables and registers may have changed besides. -/
structure State.Answered (s t : State) (p : Nat) (h : Hdr) (code : Nat) (info : Word) : Prop where
  driven : t.driven = .rspA p code (hTag h) info :: .reqCrd p :: s.driven
  port : t.port p = { s.port p with progress := true }
  others : ∀ q, q ≠ p → t.port q = s.port q
  power : t.pw = { s.pw with quiet := false }
  rest : { t with ports := s.ports, pw := s.pw, driven := s.driven, uid := s.uid, lastUse := s.lastUse, useClock := s.useClock,
                  regs := s.regs, counters := s.counters, flags := s.flags, waiters := s.waiters, ctxMoved := s.ctxMoved } = s

/-- What a request leaves that an idle port holds after taking it in, with its credit back and nothing driven yet. -/
structure State.Holding (s t : State) (p : Nat) (r : Req) : Prop where
  driven : t.driven = .reqCrd p :: s.driven
  reqs : (t.port p).reqs = [r]
  credit : (t.port p).reqCrd = (s.port p).reqCrd
  others : ∀ q, q ≠ p → t.port q = s.port q
  rest : { t with ports := s.ports, pw := s.pw, driven := s.driven, uid := s.uid, lastUse := s.lastUse, useClock := s.useClock,
                  regs := s.regs } = s

/-! ## Link packets -/

/-- RP, or TP, takes a well-formed packet for this instance at once: open, its link up, a receive credit there, no power-state entry
under way. -/
structure State.LinkTakes (s : State) (tp : Bool) (h : Pkt) : Prop where
  isOpen : s.open (linkPort tp) = true
  up : (s.link tp).up = true
  credit : 0 < (s.link tp).rxCrd
  entry : s.pw.entry = none
  form : pktForm h = true
  diid : kDiid h = s.iid

/-- RP, or TP, can drive a packet in this cycle: it has driven none in it (R49), and nothing waits before it. -/
structure State.LinkReady (s : State) (tp : Bool) : Prop where
  up : (s.link tp).up = true
  credit : 0 < (s.link tp).txCrd
  txq : (s.link tp).txq = []
  cycle : s.linkCycle = true
  sentNow : (s.link tp).sentNow = false

/-- From s to t the chuck drove one packet, then returned receive credits. -/
def State.SentOne (s t : State) (tp : Bool) (a : Pkt) (data : List Byte) : Prop :=
  ∃ n, t.driven = List.replicate n (Out.lrxCrd tp) ++ .ltx tp a data :: s.driven

/-- From s to t the chuck drove nothing but receive credits. -/
def State.SentNone (s t : State) (tp : Bool) : Prop := ∃ n, t.driven = List.replicate n (Out.lrxCrd tp) ++ s.driven

/-- A packet is the `RNACK` that answers h with a code (R192, Table 9.5). -/
def isRnack (a h : Pkt) (iid code : Nat) : Prop :=
  kType a = 3 ∧ kSiid a = iid ∧ kDiid a = kSiid h ∧ kSport a = kSport h ∧ kWin a = kWin h ∧ kGen a = kGen h ∧ kBseq a = kBseq h ∧
  kPtag a = kPtag h ∧ kCode a = code ∧ pktForm a = true

/-- A packet is the `TACK` (type 9) or `TDATA` (type 11) that answers h with a code (Table 9.9). -/
def isTwinAnswer (a h : Pkt) (iid type code : Nat) : Prop :=
  kType a = type ∧ kSiid a = iid ∧ kDiid a = kSiid h ∧ kRgn a = kRgn h ∧ kLa a = kLa h ∧ kTtag a = kTtag h ∧ kTcode a = code

/-- Lines of an accepted data packet's segment (R191). -/
def State.segLines (s : State) (h : Pkt) : List RowLine :=
  let n := (s.regionAt (s.winBase (kWin h) * 8192)).getD 0
  s.rowLines n ((s.segSpan h (s.rgnFmt n)).1 / 8) ((s.segSpan h (s.rgnFmt n)).2 / 8)

/-! ## Ploic commands -/

/-- The opcodes of Table 12.9, each with the command that performs it. -/
def commandRows : List (Nat × (Nat → Instr)) :=
  [(opcEcho, .echo), (opcGetInfo, .getInfo), (opcFwInfo, .fwInfo), (opcRegionDefine, .regionDefine),
   (opcRegionDelete, .regionDelete), (opcRegionClear, .regionClear), (opcWindowOpen, .windowOpen),
   (opcWindowClose, .windowClose), (opcCtxBind, .ctxBind), (opcCtxUnbind, .ctxUnbind), (opcRingDeclare, .ringDeclare),
   (opcPwrArm, .pwrArm), (opcPwrState, .pwrState), (opcPwrCap, .pwrCap), (opcPhaseDefine, .phaseDefine),
   (opcPhaseSet, .phaseSet), (opcDomainLock, .domainLock), (opcTestRun, .testRun), (opcCheckerMode, .checkerMode),
   (opcBankRetire, .bankRetire), (opcTwinBind, .twinBind), (opcTwinResync, .twinResync), (opcPortFence, .portFence),
   (opcPortUnfence, .portUnfence), (opcResetPartition, .resetPartition), (opcResetSlice, .resetSlice),
   (opcKeepRead, .keepRead), (opcKeepErase, .keepErase)]

/-- Firmware may accept command n now, as one of this opcode, and it passes the general checks (R278, Table 12.8). -/
structure State.Serves (s : State) (n opc : Nat) : Prop where
  ready : s.cmdReady n opc = true
  checks : s.generalCheck n = none

/-- A register that a reply to command n may write: its reply slot, `CMD.STAT`, `CMD.DONE` (R275, R276). -/
def replyReg (n o : Nat) : Prop := (∃ i, i < 8 ∧ o = oRplSlot (n % 64) i) ∨ o = oCmdStat ∨ o = oCmdDone

/-- Command n has been answered with a code, a detail and result words: its reply slot, its interrupt where it asked for one, and
it no longer runs (R273, R276, R279). -/
structure State.Replied (s t : State) (n code detail : Nat) (words : List Nat) : Prop where
  word : t.reg (oRplSlot (n % 64) 0) = BitVec.ofNat 64 (n * 2 ^ 32 + s.cmdOpc n * 2 ^ 24 + detail * 2 ^ 16 + code)
  results : ∀ i, i < 7 → t.reg (oRplSlot (n % 64) (i + 1)) = BitVec.ofNat 64 (words.getD i 0)
  irq : s.cmdF n 0 16 16 = 1 → t.bit oCmdStat 1 = true
  ended : ∀ c ∈ t.fw.running, c.n ≠ n

/-- A command answered with nothing else changed. -/
structure State.OnlyReplied (s t : State) (n code detail : Nat) (words : List Nat) : Prop
    extends State.Replied s t n code detail words where
  regs : ∀ o, ¬ replyReg n o → t.reg o = s.reg o
  fw : { t.fw with running := s.fw.running, replied := s.fw.replied } = s.fw
  rest : { t with regs := s.regs, fw := s.fw } = s

/-- Command n has been accepted and answers later. -/
def State.runs (t : State) (n : Nat) : Prop := ∃ c ∈ t.fw.running, c.n = n

/-- The refusals of an opcode in the order of their checks (R279): where a check is the first that holds, its code and outcome are
the whole reply. `exec` is the command's meaning. -/
def State.Refuses (s : State) (c : Instr) (n : Nat) (checks : List (Prop × Nat × Nat)) : Prop :=
  ∀ i q, checks[i]? = some q → q.1 → (∀ p ∈ checks.take i, ¬ p.1) →
    ∃ t : State, exec c s = .next t ∧ s.OnlyReplied t n q.2.1 (0x10 + q.2.2) []

/-! ## The register window -/

/-- A register access reaches the block: in PS0, out of reset, no power-state entry under way, with a credit of the register path. -/
structure State.Reached (s : State) : Prop where
  poreset : s.pins.poreset = false
  ps : s.ps = 0
  entry : s.pw.entry = none
  credit : (s.port 12).regCrd ≠ 0

/-- A register access changed registers at most, was answered with v and its credit, and counted as an arrival from outside. -/
structure State.Accessed (s t : State) (v : Word) : Prop where
  driven : t.driven = .regCrd :: .reg v :: s.driven
  power : t.pw = { s.pw with quiet := false }
  ports : ∀ p, t.port p = s.port p
  rest : { t with regs := s.regs, driven := s.driven, pw := s.pw, ports := s.ports } = s

/-- A host register whose write does nothing but store its RW bits. -/
def plainReg (off : Nat) : Bool :=
  !([oBootCtl, oCmdPosted, oSwap, oRank, oElogCtl, oBtCfg, oPwrCfg] : List Nat).contains off
    && !decide (oSlotShd 0 0 ≤ off ∧ off < oSlotShd 32 0) && !decide (0x8000 ≤ off ∧ off < 0x10000)
    && !decide (0x2000 ≤ off ∧ off < 0x3000 ∧ (off % 0x100 = 0x60 ∨ off % 0x100 = 0xA0))

end Sys2Proof.Machine
end

