-- ==== Sys2Proof/Certificates/Slice0/Obligations.lean ====
section
/-! DEFINITION. The statements about the block, for the provers. Each is named for what it states. -/
open Sys2Proof Sys2Proof.Machine

/-- O1. For every command c, queue rest and state s: a step of s with c at the front of its queue is exec of c on s with the rest
as its queue. On an empty queue a step is one FCLK cycle of the block (the model's choice, log entry 2), which changes nothing
while PORESET_N is held low or in PS3. In every state every command answers a next state, and so does a step. -/
def Obligations.StepRunsTheFrontCommand : Prop :=
  (∀ (c : Instr) (rest : List Instr) (s : State), step { s with pending := c :: rest } = exec c { s with pending := rest }) ∧
  (∀ s : State, s.pending = [] → step s = .next s.tick) ∧
  (∀ s : State, s.pending = [] → s.pins.poreset = true ∨ s.ps = 3 → step s = .next s) ∧
  (∀ (c : Instr) (s : State), ∃ t, exec c s = .next t) ∧ ∀ s : State, ∃ t, step s = .next t

/-- O2. At reset no line is stored, nothing is queued or accepted, no context is bound and no region is valid, the memories are
canonical, the boot sequence is in RESET, every domain runs OP5, and these registers hold the reset values of their tables:
SLOT.RANK, RMT.CFG.RTO and BTO, TWIN.CFG.TTO, SYNC.CFG.RDELAY, GLB.HANG_CFG.WINDOW, PWR.CFG.VFTO, INT.REMAP.PHYS. The build of
the reset state is the model's choice (log entry 4). -/
def Obligations.ResetState : Prop :=
  State.reset.memOk = true ∧ State.reset.mem = [] ∧ State.reset.save = [] ∧ State.reset.pending = [] ∧ State.reset.bound = [] ∧
  State.reset.iid < 2 ^ 15 ∧ State.reset.turn = 0 ∧ State.reset.cyc = 0 ∧ State.reset.boot = 0 ∧ State.reset.ps = 0 ∧
  (∀ p, (State.reset.port p).reqs = [] ∧ (State.reset.port p).inq = []) ∧ (∀ n, n < 256 → State.reset.rgnValid n = false) ∧
  (∀ d, d ≤ 8 → State.reset.opOf d = 5 ∧ State.reset.tgtOf d = 5) ∧ State.reset.reg oRank = 0x0EDC45BA98763210 ∧
  State.reset.field oRmtCfg 15 0 = 1024 ∧ State.reset.field oRmtCfg 47 32 = 512 ∧ State.reset.field oTwinCfg 31 16 = 64 ∧
  State.reset.field oSyncCfg 42 32 = 1000 ∧ State.reset.field oHangCfg 15 0 = 4096 ∧ State.reset.field oPwrCfg 47 32 = 32 ∧
  ∀ lb, lb < 512 → State.reset.field (oRemap lb) 6 0 = lb % 64

/-- O3. For every state whose memories are canonical (addresses strictly rising, no entry equal to what an unlisted address reads
as), every step's next state has canonical memories: the arrays and the save buffers. -/
def Obligations.StepKeepsMemory : Prop :=
  ∀ s t : State, s.memOk = true → step s = .next t → t.memOk = true

/-- O4. For every state whose cycle number lies in 0 to 4,095, every step's next state has its cycle number in 0 to 4,095, and its
turn is the same, the next one, or 0 after a reset; an instance number of 15 bits stays one. -/
def Obligations.StepKeepsCycleInTurn : Prop :=
  ∀ s t : State, s.cyc ≤ 4095 → step s = .next t → t.cyc ≤ 4095 ∧ (t.turn = s.turn ∨ t.turn = s.turn + 1 ∨ t.turn = 0) ∧
    (s.iid < 2 ^ 15 → t.iid < 2 ^ 15)

/-- O5. Every command keeps the queue and the build and takes back nothing the block has driven. Every command but COLD_RESET,
WARM_RESET, PORESET_ASSERT and TURN_BOUNDARY keeps the turn and the cycle, and every command but COLD_RESET keeps the instance
number. -/
def Obligations.CommandsKeepTimeAndOutputs : Prop :=
  ∀ (c : Instr) (s t : State), exec c s = .next t →
    t.pending = s.pending ∧ t.build = s.build ∧ s.driven <:+ t.driven ∧
    ((∀ i f, c ≠ .coldReset i f) → t.iid = s.iid) ∧
    ((∀ i f, c ≠ .coldReset i f) → c ≠ .warmReset → c ≠ .poresetAssert → (∀ f a m, c ≠ .turnBoundary f a m) →
      t.turn = s.turn ∧ t.cyc = s.cyc)

/-- O6. For each of the 22 request commands, on every state whose port takes headers with a credit and no power-state entry under
way: the next state has the same memories, save buffers, slices, links, timed queue, error log, fuses, wrapper and pins, the
same clock, and every other port as it was. -/
def Obligations.RequestsTouchTheirPortOnly : Prop :=
  ∀ e ∈ requestRows, ∀ (p : Nat) (h : Hdr) (s t : State), s.openPartner p = true → 0 < (s.port p).reqCrd → s.pw.entry = none →
    exec (e.2 p h) s = .next t →
      t.mem = s.mem ∧ t.save = s.save ∧ t.slices = s.slices ∧ t.powerUps = s.powerUps ∧ t.bound = s.bound ∧ t.rp = s.rp ∧
        t.tp = s.tp ∧
      t.timedQ = s.timedQ ∧ t.marks = s.marks ∧ t.elog = s.elog ∧ t.fuse = s.fuse ∧ t.wrap = s.wrap ∧ t.pins = s.pins ∧
      t.iid = s.iid ∧ t.turn = s.turn ∧ t.cyc = s.cyc ∧ t.build = s.build ∧ t.pending = s.pending ∧
      ∀ q, q ≠ p → t.port q = s.port q

/-- O7. For each of the 22 requests: where a header on an idle port fails an acceptance check, the block drives that check's code
for the header's tag at once, on the lane of its opcode, returns the credit, and leaves memory, registers (the count of full
replay filters apart), tables and every other port as they were. -/
def Obligations.RefusedRequestAnswered : Prop :=
  ∀ e ∈ requestRows, ∀ (p : Nat) (h : Hdr) (s : State) (code : Nat), s.Idle p →
    s.verdict p (rowHdr e.1 h) = .refuse code →
    ∃ t : State, exec (e.2 p h) s = .next t ∧
      t.driven = (if onReadLane (hOpc (rowHdr e.1 h)) then .rspR p code (hTag (rowHdr e.1 h)) true (List.replicate (widthR p) 0)
        else .rspA p code (hTag (rowHdr e.1 h)) 0) :: .reqCrd p :: s.driven ∧
      (t.port p).reqs = [] ∧ (t.port p).laneR = [] ∧ (t.port p).laneA = [] ∧ (t.port p).inq = [] ∧
      (t.port p).reqCrd = (s.port p).reqCrd ∧ (∀ q, q ≠ p → t.port q = s.port q) ∧ (∀ o, o ≠ oAccFull → t.reg o = s.reg o) ∧
      { t with ports := s.ports, uid := s.uid, pw := s.pw, driven := s.driven, regs := s.regs } = s

/-- O8. For each of the 22 requests: a header on an idle port whose context is bound and not resident is held at acceptance, its
credit kept and nothing driven; its beats, if it is a write, fall due. -/
def Obligations.MissedRequestHeld : Prop :=
  ∀ e ∈ requestRows, ∀ (p : Nat) (h : Hdr) (s : State), s.Idle p → s.verdict p (rowHdr e.1 h) = .miss →
    ∃ t : State, exec (e.2 p h) s = .next t ∧
      (t.port p).inq = 
        [{ uid := s.uid, h := rowHdr e.1 h, beats := [], shape := s.beatShape p (rowHdr e.1 h), ended := false }] ∧
            (t.port p).reqs = [] ∧
      (t.port p).reqCrd + 1 = (s.port p).reqCrd ∧ t.driven = s.driven ∧
      ((t.port p).due = [] ↔ (s.beatShape p (rowHdr e.1 h)).1 * (s.beatShape p (rowHdr e.1 h)).2 = 0) ∧
      (∀ q, q ≠ p → t.port q = s.port q) ∧ { t with ports := s.ports, uid := s.uid, pw := s.pw } = s

/-- O9. For RD, RDV, WR, WRV, WRP, ACC and ACCX to a region: a header that passes every check becomes the port's last request,
with the rows and lines of its shape in that region, the beats its write owes, a hold on its region counted in INFLIGHT, its
place on its lane, and its credit returned; the requests before it stay as they are, but that a read with NOALLOC on a VP bars
lines from their allocation; no byte of memory and no other register changes by this. What the port can then do follows
(settle). -/
def Obligations.DataRequestAccepted : Prop :=
  ∀ e ∈ dataRows, ∀ (p n : Nat) (h : Hdr) (s : State), s.Takes p → s.verdict p (rowHdr e.1 h) = .pass →
    s.isLoad p (rowHdr e.1 h) = false → s.isChecker p (rowHdr e.1 h) = false → hRmt (rowHdr e.1 h) = false →
    s.regionAt (firstWord (rowHdr e.1 h)) = some n →
    ∃ (u : State) (r : Req) (las : List Nat), exec (e.2 p h) s = .next (u.settle p) ∧
      (u.port p).reqs = (s.port p).reqs.map (fun q => { q with barred := las ++ q.barred }) ++ [r] ∧
      (isRead e.1 = false ∨ hNoalloc (rowHdr e.1 h) = false ∨ isVp p = false →
          las = []) ∧ r.uid = s.uid ∧ r.h = rowHdr e.1 h ∧ r.phase = .waiting ∧ r.rgn = n ∧ r.holds = true ∧ r.ans = none ∧ r.space = 0 ∧
      r.rows = s.mkRows n (rowHdr e.1 h) ∧ (r.beatsPer, r.beatRows) = s.beatShape p (rowHdr e.1 h) ∧
      ((u.port p).laneR, (u.port p).laneA) = (if isRead e.1 then ((s.port p).laneR ++ [s.uid], (s.port p).laneA)
        else ((s.port p).laneR, (s.port p).laneA ++ [s.uid])) ∧
      (u.port p).reqCrd = (s.port p).reqCrd ∧ u.driven = .reqCrd p :: s.driven ∧
      u.inflight n = min (s.inflight n + 1) 65535 ∧ (∀ o, o ≠ oRgn n 24 → u.reg o = s.reg o) ∧
      u.mem = s.mem ∧ u.save = s.save ∧ u.groups = s.groups ∧ ∀ q, q ≠ p → u.port q = s.port q

/-- O10. A CP bulk RD or WR accepted in LOAD or FAIL becomes a request to load space; one accepted under CHECKER_MODE with
delivery RAW a request for one line of its physical bank; a WR or WRV with RMT set that passes every check a request to
another instance, with one row for each row of its shape. In each case the credit is returned and memory is unchanged. -/
def Obligations.RequestOutsideRegionsAccepted : Prop :=
  (∀ e ∈ [(opRd, Instr.rd), (opWr, Instr.wr)], ∀ (p : Nat) (h : Hdr) (s : State), s.Takes p →
    s.verdict p (rowHdr e.1 h) = .pass →
    s.isLoad p (rowHdr e.1 h) = true →
    ∃ (u : State) (r : Req), exec (e.2 p h) s = .next (u.settle p) ∧ (u.port p).reqs = (s.port p).reqs ++ [r] ∧
      r.h = rowHdr e.1 h ∧ r.space = 2 ∧
      r.phase = .waiting ∧ r.rows.map (fun w => w.byte) = (s.rowStarts (rowHdr e.1 h)).map (fun a => (8 * a).toNat) ∧
      u.driven = .reqCrd p :: s.driven ∧ u.mem = s.mem ∧ u.fw = s.fw) ∧
  (∀ e ∈ [(opRd, Instr.rd), (opWr, Instr.wr)], ∀ (p : Nat) (h : Hdr) (s : State), s.Takes p →
    s.verdict p (rowHdr e.1 h) = .pass →
    s.isLoad p (rowHdr e.1 h) = false → s.isChecker p (rowHdr e.1 h) = true →
    ∃ (u : State) (r : Req) (l : RowLine), exec (e.2 p h) s = .next (u.settle p) ∧ (u.port p).reqs = (s.port p).reqs ++ [r] ∧
      r.h = rowHdr e.1 h ∧ r.space = 1 ∧
      r.rows = [Row.todo (fld (hAddr (rowHdr e.1 h)) 26 14) [l]] ∧ l.ix = fld (hAddr (rowHdr e.1 h)) 13 0 ∧ l.st = .todo ∧
      u.driven = .reqCrd p :: s.driven ∧ u.mem = s.mem) ∧
  (∀ e ∈ [(opWr, Instr.wr), (opWrv, Instr.wrv)], ∀ (p : Nat) (h : Hdr) (s : State), s.Takes p →
    s.verdict p (rowHdr e.1 h) = .pass →
    s.isLoad p (rowHdr e.1 h) = false → s.isChecker p (rowHdr e.1 h) = false → hRmt (rowHdr e.1 h) = true →
    ∃ (u : State) (r : Req), exec (e.2 p h) s = .next (u.settle p) ∧ (u.port p).reqs = (s.port p).reqs ++ [r] ∧
      r.h = rowHdr e.1 h ∧ r.space = 3 ∧
      r.rows.length = s.rowCount (rowHdr e.1 h) ∧ r.holds = false ∧ u.driven = .reqCrd p :: s.driven ∧ u.mem = s.mem ∧
        u.rp = s.rp)

/-- O11. On an idle port an accepted NOP is answered OK, an accepted FENCE, which has no earlier request to wait for, is answered
OK, and neither changes anything else. An accepted INVAL is answered OK and takes from the port's line cache exactly the lines
its shape touches, where the port is a VP. -/
def Obligations.NopFenceInvalAnswered : Prop :=
  (∀ e ∈ [(opNop, Instr.nop), (opFence, Instr.fence)], ∀ (p : Nat) (h : Hdr) (s : State), s.Idle p →
    s.verdict p (rowHdr e.1 h) = .pass →
    ∃ t : State, exec (e.2 p h) s = .next t ∧ s.Answered t p (rowHdr e.1 h) 0 0 ∧ t.regs = s.regs ∧ t.counters = s.counters ∧
      t.flags = s.flags ∧ t.waiters = s.waiters ∧ t.ctxMoved = s.ctxMoved) ∧
  (∀ (p n : Nat) (h : Hdr) (s : State), s.Idle p → s.verdict p (rowHdr opInval h) = .pass →
    s.isLoad p (rowHdr opInval h) = false → hRmt (rowHdr opInval h) = false →
    s.regionAt (firstWord (rowHdr opInval h)) = some n →
    ∃ t : State, exec (.inval p h) s = .next t ∧
      t.driven = .rspA p 0 (hTag (rowHdr opInval h)) 0 :: .reqCrd p :: s.driven ∧
      (∀ c, c ∈ (t.port p).vpc ↔ c ∈ (s.port p).vpc ∧
        (isVp p = true → ∀ w ∈ s.mkRows n (rowHdr opInval h), ∀ l ∈ w.lines, l.la ≠ c.1)) ∧
      (t.port p).reqs = [] ∧ (t.port p).streams = (s.port p).streams ∧ t.regs = s.regs ∧ t.mem = s.mem ∧
      ∀ q, q ≠ p → t.port q = s.port q)

/-- O12. On an idle port, an accepted CNT_ADD to a local counter whose ring it fits adds VALUE, saturating at 2^64 - 1, and is
answered with the sum; FLG_SET and FLG_CLR write the flag and are answered with the old one; CNT_RD and FLG_TEST are answered
with the value and change no counter and no flag. Waits whose condition comes to hold become due, no other counter or flag
changes, and no register but SYNC.ERR (an overflow) or, for an acquire, SYNC.MIS and SYNC.MIS_LAST. -/
def Obligations.CounterAndFlagOperations : Prop :=
  (∀ (p i n : Nat) (h : Hdr) (s : State), s.Idle p → s.verdict p (rowHdr opCntAdd h) = .pass →
    s.slotOf (hCtx (rowHdr opCntAdd h)) = some i → s.translate i false true (hSid (rowHdr opCntAdd h)) = .local n →
    s.fits n (hValue (rowHdr opCntAdd h)) = true →
    ∃ t : State, exec (.cntAdd p h) s = .next t ∧ s.Answered t p (rowHdr opCntAdd h) 0 (t.ctr n).val ∧
      (t.ctr n).val.toNat = min ((s.ctr n).val.toNat + hValue (rowHdr opCntAdd h)) (2 ^ 64 - 1) ∧
      (t.ctr n).mod = some (modifOf p (rowHdr opCntAdd h)) ∧
      (∀ m, m ≠ n → t.ctr m = s.ctr m) ∧ t.flags = s.flags ∧ (∀ o, o ≠ oSyncErr → t.reg o = s.reg o) ∧
      t.bit oSyncErr 0 = (s.bit oSyncErr 0 || decide (2 ^ 64 - 1 < (s.ctr n).val.toNat + hValue (rowHdr opCntAdd h))) ∧
      t.waiters = s.waiters.map fun w =>
        if w.isFlag = false ∧ w.phys = n ∧ w.met = none ∧
          w.thr.toNat ≤ (t.ctr n).val.toNat then { w with met := some s.now } else w) ∧
  (∀ e ∈ ([(opFlgSet, Instr.flgSet, true), (opFlgClr, Instr.flgClr, false)] : List (Nat × (Nat → Hdr →
    Instr) × Bool)), ∀ (p i n : Nat) (h : Hdr) (s : State), s.Idle p →
    s.verdict p (rowHdr e.1 h) = .pass → s.slotOf (hCtx (rowHdr e.1 h)) = some i →
    s.translate i true true (hSid (rowHdr e.1 h)) = .local n →
    ∃ t : State, exec (e.2.1 p h) s = .next t ∧ s.Answered t p (rowHdr e.1 h) 0 (BitVec.ofNat 64 (b2n (s.flg n).val)) ∧
      (t.flg n).val = e.2.2 ∧ (t.flg n).mod = some (modifOf p (rowHdr e.1 h)) ∧ (∀ m, m ≠ n → t.flg m = s.flg m) ∧
      t.counters = s.counters ∧ t.regs = s.regs ∧
      t.waiters = s.waiters.map fun w =>
        if w.isFlag = true ∧ w.phys = n ∧ w.met = none ∧ e.2.2 ≠ w.cond then { w with met := some s.now } else w) ∧
  (∀ e ∈ [(opCntRd, Instr.cntRd, false), (opFlgTest, Instr.flgTest, true)], ∀ (p i n : Nat) (h : Hdr) (s : State), s.Idle p →
    s.verdict p (rowHdr e.1 h) = .pass → s.slotOf (hCtx (rowHdr e.1 h)) = some i →
    s.translate i e.2.2 false (hSid (rowHdr e.1 h)) = .local n →
    ∃ t : State, exec (e.2.1 p h) s = .next t ∧
      s.Answered t p (rowHdr e.1 h) 0 (if e.2.2 then BitVec.ofNat 64 (b2n (s.flg n).val) else (s.ctr n).val) ∧
      t.counters = s.counters ∧ t.flags = s.flags ∧ t.waiters = s.waiters ∧ t.ctxMoved = s.ctxMoved ∧
      (∀ o, o ≠ oMis → o ≠ oMisLast → t.reg o = s.reg o) ∧ (hAcq (rowHdr e.1 h) = false → t.regs = s.regs))

/-- O13. On an idle port, an accepted wait on a local counter or flag is answered OK with the value where its condition holds;
where it does not, and the port has fewer than 256 registered waits, it is answered YIELD with the value and registered at the
end of the waiter table; with 256 registered it is held unanswered. No counter and no flag changes. -/
def Obligations.WaitsAnswered : Prop :=
  ∀ e ∈ [(opCntWait, Instr.cntWait, false), (opFlgWait, Instr.flgWait, true)], ∀ (p i n : Nat) (h : Hdr) (s : State), s.Idle p →
    s.verdict p (rowHdr e.1 h) = .pass → s.slotOf (hCtx (rowHdr e.1 h)) = some i →
    s.translate i e.2.2 false (hSid (rowHdr e.1 h)) = .local n →
    ∃ t : State, exec (e.2.1 p h) s = .next t ∧ t.counters = s.counters ∧ t.flags = s.flags ∧ t.mem = s.mem ∧
      (∀ o, o ≠ oMis → o ≠ oMisLast → t.reg o = s.reg o) ∧
      (if (if e.2.2 then (s.flg n).val != hCond (rowHdr e.1 h)
          else decide (hValue (rowHdr e.1 h) ≤ (s.ctr n).val.toNat)) = true then
        s.Answered t p (rowHdr e.1 h) 0 (if e.2.2 then BitVec.ofNat 64 (b2n (s.flg n).val) else (s.ctr n).val) ∧
          t.waiters = s.waiters
      else if (s.waiters.filter fun v => v.port == p).length < 256 then
        s.Answered t p (rowHdr e.1 h) 2 (if e.2.2 then BitVec.ofNat 64 (b2n (s.flg n).val) else (s.ctr n).val) ∧
          t.regs = s.regs ∧ ∃ w, t.waiters = s.waiters.map (fun v => if v.uid = s.uid then { v with told := some s.now } else v) ++ [w] ∧
            w.uid = s.uid ∧ w.told = some s.now ∧ w.queued = false ∧ w.port = p ∧ w.ctx = hCtx (rowHdr e.1 h) ∧
            w.tag = hTag (rowHdr e.1 h) ∧ w.isFlag = e.2.2 ∧ w.phys = n ∧ w.thr.toNat = hValue (rowHdr e.1 h) ∧
            w.cond = hCond (rowHdr e.1 h) ∧ w.yield = hYield (rowHdr e.1 h) ∧ w.wline = hWline (rowHdr e.1 h) ∧ w.met = none
      else ∃ r, s.Holding t p r ∧ r.h = rowHdr e.1 h ∧ r.phase = .held ∧ t.waiters = s.waiters ∧ t.regs = s.regs)

/-- O14. On an idle port, an accepted RANGE_OPEN with an entry of the scoreboard not in force takes the lowest such entry, writes
into it the line span from the header's first word to the word EXT words on, the port and the context, raises its region's
INFLIGHT by 1 and SB.STAT.HWM to the ranges now in force where it was lower, and is answered OK with the entry's index. With
all 256 in force it is answered RETRY, SB.FULL counts 1, and its region's INFLIGHT is as before the request. An accepted
RANGE_CLOSE of an entry not in force, of another context or already closing is answered BUSY; any other is kept unanswered, in
the phase closing. A close changes no register, counter, flag or waiter by its acceptance. -/
def Obligations.RangesOpenAndClose : Prop :=
  (∀ (p i n : Nat) (h : Hdr) (s : State), s.Idle p → s.verdict p (rowHdr opRangeOpen h) = .pass →
    s.regionAt (firstWord (rowHdr opRangeOpen h)) = some n → i < 256 → s.sbValid i = false → (∀ j, j < i → s.sbValid j = true) →
    ∃ t : State, exec (.rangeOpen p h) s = .next t ∧ s.Answered t p (rowHdr opRangeOpen h) 0 (BitVec.ofNat 64 i) ∧
      t.sbValid i = true ∧ t.tab (oSbEnt i) 22 0 = firstWord (rowHdr opRangeOpen h) / 16 ∧
      t.tab (oSbEnt i) 45 23 = (firstWord (rowHdr opRangeOpen h) + hExt (rowHdr opRangeOpen h)) / 16 % 2 ^ 23 ∧
      t.tab (oSbEnt i) 62 59 = p ∧ t.tab (oSbEnt i) 58 49 = hCtx (rowHdr opRangeOpen h) ∧
      t.inflight n = min (s.inflight n + 1) 65535 ∧ t.field oSbStat 24 16 = max (s.field oSbStat 24 16) t.sbOpen ∧
      (∀ o, o ≠ oSbEnt i → o ≠ oSbStat → o ≠ oRgn n 24 → t.reg o = s.reg o) ∧ t.counters = s.counters ∧ t.flags = s.flags ∧
      t.waiters = s.waiters) ∧
  (∀ (p n : Nat) (h : Hdr) (s : State), s.Idle p → s.verdict p (rowHdr opRangeOpen h) = .pass →
    s.regionAt (firstWord (rowHdr opRangeOpen h)) = some n → (∀ j, j < 256 → s.sbValid j = true) →
    ∃ t : State, exec (.rangeOpen p h) s = .next t ∧ s.Answered t p (rowHdr opRangeOpen h) 1 0 ∧
      t.field oSbFull 31 0 = min (s.field oSbFull 31 0 + 1) (2 ^ 32 - 1) ∧ (s.inflight n < 65535 → t.inflight n = s.inflight n) ∧
      (∀ o, o ≠ oSbFull → o ≠ oRgn n 24 → t.reg o = s.reg o) ∧ t.counters = s.counters ∧ t.flags = s.flags ∧
      t.waiters = s.waiters) ∧
  (∀ (p : Nat) (h : Hdr) (s : State), s.Idle p → s.verdict p (rowHdr opRangeClose h) = .pass →
    ∃ t : State, exec (.rangeClose p h) s = .next t ∧ t.regs = s.regs ∧ t.counters = s.counters ∧ t.flags = s.flags ∧
      t.waiters = s.waiters ∧
      (if s.sbValid (fld (hSid (rowHdr opRangeClose h)) 7 0) = false ∨
          s.tab (oSbEnt (fld (hSid (rowHdr opRangeClose h)) 7 0)) 58 49 ≠ hCtx (rowHdr opRangeClose h) ∨
          s.sbClosing (fld (hSid (rowHdr opRangeClose h)) 7 0) = true then
        s.Answered t p (rowHdr opRangeClose h) 11 0
      else ∃ r, s.Holding t p r ∧ r.h = rowHdr opRangeClose h ∧ r.phase = .closing ∧ r.ans = none))

/-- O15. On an idle port, an accepted STREAM_OPEN opens the tracker it names: with its own number, the context, gating ID, depth
and delivery format of its header, the region of its first word, the row length and the row addresses of every step of the
view as it stands, step 0 next and nothing fetched; its region's INFLIGHT rises by 1 and it is answered OK. An accepted
STREAM_STEP is answered nothing yet and waits, active, on the read lane, no tracker changed. An accepted STREAM_CLOSE closes
the tracker, takes 1 off its region's INFLIGHT and is answered OK. No other tracker or register, no other port and no memory
changes by any of these. -/
def Obligations.StreamsOpenStepClose : Prop :=
  (∀ (p n : Nat) (h : Hdr) (s : State), s.Idle p → s.verdict p (rowHdr opStreamOpen h) = .pass →
    s.regionAt (firstWord (rowHdr opStreamOpen h)) = some n →
    let k := hStrm (rowHdr opStreamOpen h)
    let v := s.view (hRows (rowHdr opStreamOpen h))
    ∃ t : State, exec (.streamOpen p h) s = .next t ∧
      t.driven = .rspA p 0 (hTag (rowHdr opStreamOpen h)) 0 :: .reqCrd p :: s.driven ∧ (t.port p).reqs = [] ∧
      (t.port p).laneA = [] ∧ (t.port p).reqCrd = (s.port p).reqCrd ∧
      (t.port p).stream k = { isOpen := true, gen := s.uid, ctx := hCtx (rowHdr opStreamOpen h), gate := hSid (rowHdr opStreamOpen h),
                              rgn := n, dfmt := hDfmt (rowHdr opStreamOpen h), depth := hDepth (rowHdr opStreamOpen h),
                              rowLen := v.rowlen,
                              steps := (List.range (stepCount v)).map fun (i : Nat) =>
                                (stepRows v (firstWord (rowHdr opStreamOpen h)) i).map fun a => (8 * a).toNat,
                              next := 0, fetched := [] } ∧
      (∀ j, j ≠ k → (t.port p).stream j = (s.port p).stream j) ∧
      t.inflight n = min (s.inflight n + 1) 65535 ∧ (∀ o, o ≠ oRgn n 24 → t.reg o = s.reg o) ∧
      (∀ q, q ≠ p → t.port q = s.port q) ∧ t.mem = s.mem ∧ t.save = s.save) ∧
  (∀ (p : Nat) (h : Hdr) (s : State), s.Idle p → s.verdict p (rowHdr opStreamStep h) = .pass →
    ∃ (t : State) (r : Req), exec (.streamStep p h) s = .next t ∧ s.Holding t p r ∧ r.h = rowHdr opStreamStep h ∧
      r.phase = .active ∧ r.ans = none ∧ (t.port p).laneR = [r.uid] ∧ (t.port p).streams = (s.port p).streams ∧ t.regs = s.regs) ∧
  (∀ (p : Nat) (h : Hdr) (s : State), s.Idle p → s.verdict p (rowHdr opStreamClose h) = .pass →
    let k := hStrm (rowHdr opStreamClose h)
    let n := ((s.port p).stream k).rgn
    ∃ t : State, exec (.streamClose p h) s = .next t ∧
      t.driven = .rspA p 0 (hTag (rowHdr opStreamClose h)) 0 :: .reqCrd p :: s.driven ∧ (t.port p).reqs = [] ∧
      (t.port p).laneA = [] ∧ (t.port p).reqCrd = (s.port p).reqCrd ∧ (t.port p).stream k = Stream.closed ∧
      (∀ j, j ≠ k → (t.port p).stream j = (s.port p).stream j) ∧ t.inflight n = s.inflight n - 1 ∧
      (∀ o, o ≠ oRgn n 24 → t.reg o = s.reg o) ∧ (∀ q, q ≠ p → t.port q = s.port q) ∧ t.mem = s.mem ∧ t.save = s.save)

/-- O16. On an idle port, an accepted CNT_ADD, FLG_SET or FLG_CLR whose ID is routed waits, active, with the route's word as read
at acceptance, for the RP to stamp it; an accepted CNT_ADD to a local counter that would break its ring's bound is held
unapplied and counts 1 in SYNC.HOLD. Neither changes a counter or a flag. -/
def Obligations.SyncOperationsThatWait : Prop :=
  (∀ e ∈ [(opCntAdd, Instr.cntAdd, false), (opFlgSet, Instr.flgSet, true), (opFlgClr, Instr.flgClr, true)],
    ∀ (p i k : Nat) (h : Hdr) (s : State), s.Idle p → s.verdict p (rowHdr e.1 h) = .pass →
    s.slotOf (hCtx (rowHdr e.1 h)) = some i → s.translate i e.2.2 true (hSid (rowHdr e.1 h)) = .routed k →
    ∃ (t : State) (r : Req), exec (e.2.1 p h) s = .next t ∧ s.Holding t p r ∧ r.h = rowHdr e.1 h ∧ r.phase = .active ∧
      r.sync = 65536 + s.tab (oRoute k) 63 0 ∧ t.regs = s.regs ∧ t.counters = s.counters ∧ t.flags = s.flags) ∧
  (∀ (p i n : Nat) (h : Hdr) (s : State), s.Idle p → s.verdict p (rowHdr opCntAdd h) = .pass →
    s.slotOf (hCtx (rowHdr opCntAdd h)) = some i → s.translate i false true (hSid (rowHdr opCntAdd h)) = .local n →
    s.fits n (hValue (rowHdr opCntAdd h)) = false →
    ∃ (t : State) (r : Req), exec (.cntAdd p h) s = .next t ∧ s.Holding t p r ∧ r.h = rowHdr opCntAdd h ∧ r.phase = .held ∧
      t.field oHold 31 0 = min (s.field oHold 31 0 + 1) (2 ^ 32 - 1) ∧ (∀ o, o ≠ oHold → t.reg o = s.reg o) ∧
      t.counters = s.counters ∧ t.flags = s.flags)

/-- O17. Where a port is absent, carries no requests, is held after a partition reset, or the block is out of PS0 or held in
PORESET_N, none of the 22 requests and no beat of write data changes anything (the model's reading of a command that cannot
reach the block, log entry 3). A header of any of the 22 requests driven on an open port that has no request credit is
discarded: PORT[p].ERR.CRD is set and nothing else changes; with AF_PROTO set the port is fenced with reason 3. An inbound
data packet, closing packet or RNACK changes nothing where RP is not open; without a receive credit it sets PORT[10].ERR.CRD,
fencing the port with reason 3 where AF_PROTO is set; with a credit, with a reserved bit set or another DIID, it is discarded,
RMT.ERR.FORM is set, and no other register, no memory, batch, sent packet or port changes. -/
def Obligations.WhatAPortDoesNotTake : Prop :=
  ((∀ e ∈ requestRows, ∀ (p : Nat) (h : Hdr) (s : State), s.openPartner p = false → exec (e.2 p h) s = .next s) ∧
  (∀ (p wen : Nat) (data : List Byte) (s : State), s.openPartner p = false → exec (.writeDataBeat p data wen) s = .next s)) ∧
  (∀ e ∈ requestRows, ∀ (p : Nat) (h : Hdr) (s : State), s.openPartner p = true → (s.port p).reqCrd = 0 →
    exec (e.2 p h) s = .next
      (if s.bit (oHangPort p) 1 ∧ p ≠ 12 then (s.setBit (oPErr p) 0).fencePort p 3 else s.setBit (oPErr p) 0) ∧
    (s.setBit (oPErr p) 0).bit (oPErr p) 0 = true ∧ ∀ o, o ≠ oPErr p → (s.setBit (oPErr p) 0).reg o = s.reg o) ∧
  (∀ e ∈ ([fun h d => .rwrite h d, fun h d => .closingPacket h d, fun h _ => .rnack h] : List (Pkt → List Byte → Instr)),
    ∀ (h : Pkt) (d : List Byte) (s : State),
    (s.open 10 = false → exec (e h d) s = .next s) ∧
    (s.open 10 = true → s.rp.link.rxCrd = 0 → exec (e h d) s = .next
      (if s.bit (oHangPort 10) 1 = true then (s.setBit (oPErr 10) 0).fencePort 10 3 else s.setBit (oPErr 10) 0)) ∧
    (s.open 10 = true → 0 < s.rp.link.rxCrd → s.pw.entry = none → pktForm h = false ∨ kDiid h ≠ s.iid →
      ∃ t : State, exec (e h d) s = .next t ∧ s.SentNone t false ∧ t.bit oRmtErr 5 = true ∧
        (∀ o, o ≠ oRmtErr → t.reg o = s.reg o) ∧ { t.rp with link := s.rp.link } = s.rp ∧ t.ports = s.ports ∧
          t.mem = s.mem))

/-- O18. On an open port where no lease has run out: a beat without a write-data credit sets ERR.CRD. With one, a beat in the
cycle of a hog cutoff is discarded, its credit returned; any other that belongs to no write returns its credit and sets
ERR.BEAT (ERR.CRD and ERR.BEAT each fence the port with reason 3 where AF_PROTO is set); any other belongs to the oldest write
that lacks beats, which owes one less: it restarts the lease and is kept for that write, accepted or held, its credit not yet
returned, but that a beat of a refused write is discarded and returns its credit. No byte of memory changes by this; what the
port can then do follows. -/
def Obligations.BeatTaken : Prop :=
  (∀ (p wen : Nat) (data : List Byte) (s : State), s.openPartner p = true → s.leaseOut p = false → (s.port p).wdCrd = 0 →
    exec (.writeDataBeat p data wen) s = .next
      (if s.bit (oHangPort p) 1 ∧ p ≠ 12 then (s.setBit (oPErr p) 0).fencePort p 3 else s.setBit (oPErr p) 0)) ∧
  (∀ (p wen : Nat) (data : List Byte) (s : State), s.openPartner p = true → s.leaseOut p = false → 0 < (s.port p).wdCrd →
    (s.port p).hogAt = some s.now →
    ∃ u : State, exec (.writeDataBeat p data wen) s = .next (u.settle p) ∧
        u.port p = { s.port p with lease := 0, beatNow := true } ∧
      u.driven = .wdCrd p :: s.driven ∧ (∀ q, q ≠ p → u.port q = s.port q) ∧
      { u with ports := s.ports, driven := s.driven } = s) ∧
  (∀ (p wen : Nat) (data : List Byte) (s : State), s.openPartner p = true → 0 < (s.port p).wdCrd → (s.port p).hogAt ≠ some s.now →
    (s.port p).due = [] →
    ∃ u : State, exec (.writeDataBeat p data wen) s = .next
        ((if s.bit (oHangPort p) 1 ∧ p ≠ 12 then u.fencePort p 3 else u).settle p) ∧
      u.bit (oPErr p) 1 = true ∧ (u.port p).reqs = (s.port p).reqs ∧ (u.port p).inq = (s.port p).inq ∧
      (u.port p).wdCrd = (s.port p).wdCrd ∧ u.driven = .wdCrd p :: s.driven ∧ (∀ o, o ≠ oPErr p → u.reg o = s.reg o) ∧
      (∀ q, q ≠ p → u.port q = s.port q) ∧ { u with ports := s.ports, driven := s.driven, regs := s.regs } = s) ∧
  (∀ (p wen : Nat) (data : List Byte) (d : BeatDue) (ds : List BeatDue) (s : State), s.openPartner p = true →
    s.leaseOut p = false → 0 < (s.port p).wdCrd → (s.port p).hogAt ≠ some s.now → (s.port p).due = d :: ds →
    ∃ u : State, exec (.writeDataBeat p data wen) s = .next (u.settle p) ∧
      (u.port p).due = (if d.need ≤ 1 then ds else { d with need := d.need - 1 } :: ds) ∧
      (u.port p).lease = 0 ∧ (u.port p).wdCrd + (if d.refused then 0 else 1) = (s.port p).wdCrd ∧
      u.driven = (if d.refused then .wdCrd p :: s.driven else s.driven) ∧
      (u.port p).reqs = (s.port p).reqs.map (fun r => if r.uid = d.uid ∧ d.refused = false then
        { r with beats := r.beats ++ [(padBeat p data, wen % 2 ^ 256)] } else r) ∧
      (u.port p).inq = (s.port p).inq.map (fun w => if w.uid = d.uid ∧ d.refused = false then
        { w with beats := w.beats ++ [(padBeat p data, wen % 2 ^ 256)] } else w) ∧
      (∀ q, q ≠ p → u.port q = s.port q) ∧ { u with ports := s.ports, driven := s.driven } = s)

/-- O19. Once the lease of the oldest write that lacks beats has run out, HOG_CUTOFF puts the HOG event, with the context and tag
of its header and the beats it owes, before every event queued, sets ERR.HOG and forgets those beats. A refused write ends so.
An accepted write is cut, to be answered ABORT: no line access of it stays at any group, but an accumulate's stay. A write
held at acceptance returns its request credit and the credits of its beats; it leaves acceptance refused with ABORT, or is
marked ended where an acknowledgement is before it. What the port can then do follows. Where the lease has not run out nothing
changes. -/
def Obligations.HogCutoffEndsTheWrite : Prop :=
  (∀ (p : Nat) (s : State), s.leaseOut p = false → exec (.hogCutoff p) s = .next s) ∧
  (∀ (p : Nat) (d : BeatDue) (ds : List BeatDue) (s : State), s.openPartner p = true → (s.port p).due = d :: ds →
    0 < s.field (oCfg p) 7 0 → 64 * s.field (oCfg p) 7 0 ≤ (s.port p).lease →
    ∃ u v : State, exec (.hogCutoff p) s = .next (v.settle p) ∧ u.driven = s.driven ∧
      u.port p = { s.port p with due := ds, lease := 0, hogAt := some s.now,
                                 evtq := ⟨2, d.ctx, d.tag, BitVec.ofNat 64 (d.need % 256), none⟩ :: (s.port p).evtq } ∧
      u.bit (oPErr p) 2 = true ∧
      (∀ o, o ≠ oPErr p → u.reg o = s.reg o) ∧ (∀ q, q ≠ p → u.port q = s.port q) ∧
      { u with ports := s.ports, regs := s.regs } = s ∧
      (d.refused = true → v = u) ∧
      (d.refused = false → ∀ r, (s.port p).req d.uid = some r → v.driven = u.driven ∧ v.regs = u.regs ∧ v.mem = s.mem ∧
        (∃ r', (v.port p).req d.uid = some r' ∧ r'.cut = some 13 ∧ r'.h = r.h ∧ r'.beats = r.beats ∧
          (isAcc (hOpc r.h) = true → r'.rows = r.rows ∧ v.groups = s.groups)) ∧
        (isAcc (hOpc r.h) = false → ∀ g, g < s.nGroups →
          (v.group g).waitq = (s.group g).waitq.filter (fun a => !a.of p d.uid) ∧
          (v.group g).arriving = (s.group g).arriving.filter (fun a => !a.of p d.uid) ∧
          (v.group g).parked = (s.group g).parked.filter (fun a => !a.of p d.uid))) ∧
      (d.refused = false → (s.port p).req d.uid = none → ∀ w, (s.port p).inq.find? (fun x => x.uid == d.uid) = some w →
        ∃ x : State, v = x.admitHeld p ((s.port p).inq.length + 1) ∧
          x.driven = List.replicate w.beats.length (Out.wdCrd p) ++ .reqCrd p :: s.driven ∧
          (x.port p).reqCrd = (s.port p).reqCrd + 1 ∧ (x.port p).wdCrd = (s.port p).wdCrd + w.beats.length ∧
          (if ((s.port p).inq.takeWhile fun y => y.uid != d.uid).all (fun y => onReadLane (hOpc y.h)) = true then
            (x.port p).inq = (s.port p).inq.filter (fun y => y.uid != d.uid) ∧
            ∃ r, (x.port p).reqs = (s.port p).reqs ++ [r] ∧ r.h = w.h ∧ r.ans = some (13, 0)
          else (x.port p).inq = (s.port p).inq.map (fun y => if y.uid = d.uid then { y with ended := true, beats := [] } else y) ∧
            (x.port p).reqs = (s.port p).reqs)))

/-- O20. Where CC3 runs and the port is open: the context of a partner port's first held header, bound and not resident, is made
resident where it can be, and the held headers enter acceptance again; where every resident context is pinned, the header is
refused with RETRY, its credits returned, and SYNC.MISS and SYNC.MISS_RETRY each count 1. A held header whose context is
resident by then, or no longer bound, counts 1 in SYNC.MISS and enters acceptance again. A packet held first in RP for a miss
is served the same way. Where nothing is held, and no complete batch waits for its context, nothing changes. -/
def Obligations.ContextMissServed : Prop :=
  (∀ (p : Nat) (s : State), p ≠ 10 → (s.port p).inq = [] → exec (.contextMiss p) s = .next s) ∧
  (∀ s : State, s.rp.held = [] → s.missingBatch = none → exec (.contextMiss 10) s = .next s) ∧
  (∀ (p : Nat) (w : Held) (ws : List Held) (s t : State), s.coreRuns 3 = true → s.openPartner p = true →
    (s.port p).inq = w :: ws → w.ended = false → s.isBound (hCtx w.h) = true → s.slotOf (hCtx w.h) = none →
    s.ensureResident (hCtx w.h) = (t, true) →
    exec (.contextMiss p) s = .next ((t.admitHeld p (ws.length + 2)).settle p) ∧ (t.slotOf (hCtx w.h)).isSome = true ∧
      t.port p = s.port p ∧ t.driven = s.driven ∧ t.mem = s.mem) ∧
  (∀ (p : Nat) (w : Held) (ws : List Held) (s t : State), s.coreRuns 3 = true → s.openPartner p = true →
    (s.port p).inq = w :: ws → w.ended = false → s.isBound (hCtx w.h) = true → s.slotOf (hCtx w.h) = none →
    s.ensureResident (hCtx w.h) = (t, false) →
    ∃ v : State, exec (.contextMiss p) s = .next ((v.admitHeld p (ws.length + 2)).settle p) ∧
      v.driven = List.replicate w.beats.length (Out.wdCrd p) ++ .reqCrd p :: s.driven ∧
      (v.port p).inq = ws ∧ (∃ r, (v.port p).reqs = (s.port p).reqs ++ [r] ∧ r.h = w.h ∧ r.ans = some (1, 0)) ∧
      v.field oSyncMiss 31 0 = min (s.field oSyncMiss 31 0 + 1) (2 ^ 32 - 1) ∧
      v.field oMissRetry 31 0 = min (s.field oMissRetry 31 0 + 1) (2 ^ 32 - 1) ∧ v.mem = s.mem) ∧
  (∀ (p : Nat) (w : Held) (ws : List Held) (s : State), s.coreRuns 3 = true → s.openPartner p = true →
    (s.port p).inq = w :: ws → w.ended = false → s.isBound (hCtx w.h) = false ∨ (s.slotOf (hCtx w.h)).isSome = true →
    exec (.contextMiss p) s = .next (((s.bump oSyncMiss 31 0 1).admitHeld p (ws.length + 2)).settle p)) ∧
  (∀ (h : Pkt) (d : List Byte) (a : Word) (rest : List (Pkt × List Byte × Word)) (s : State), s.coreRuns 3 = true →
    s.open 10 = true →
    s.rp.held = (h, d, a) :: rest → s.ownerCheck h = .miss →
    (∀ t, s.ensureResident (s.winCtx (kWin h)) = (t, true) →
      exec (.contextMiss 10) s = .next ((t.serveHeld (rest.length + 2)).repayLink false)) ∧
    (∀ t, s.ensureResident (s.winCtx (kWin h)) = (t, false) →
      ∃ v : State, exec (.contextMiss 10) s = .next (((v.refusePkt h 1).serveHeld (rest.length + 1)).repayLink false) ∧
        v.rp.held = rest ∧ v.field oMissRetry 31 0 = min (s.field oMissRetry 31 0 + 1) (2 ^ 32 - 1)))

/-- O21. OVERFLOW_EVENT queues OVERFLOW once the queue has room after a READY was dropped. DREQ_PULSE drives the ring's line and
moves the mark by one burst, where a burst of room or data is there and at most 254 lie before it. SCOREBOARD_RELEASE frees
exactly the held rows that no range in force overlaps any longer. RANGE_CLOSE_IN_FORCE, with every earlier write of the port
visible at PORT scope and, for REL, at its own, ends the range and its hold on its region and answers OK; an aborted close
counts in SB.ABORTS; a close whose entry is no longer in force is answered BUSY. -/
def Obligations.EventsPulsesAndReleases : Prop :=
  (∀ (p : Nat) (s : State), exec (.overflowEvent p) s = .next
    (if s.hasPort p = true ∧ (s.port p).evtOvf = true ∧ (s.port p).evtq.length < 64 then
      s.setPort p { s.port p with evtOvf := false, evtq := (s.port p).evtq ++ [⟨1, 0, 0, 0, none⟩] } else s)) ∧
  (∀ (k : Nat) (s : State), s.tab (oRing k) 63 63 = 1 → s.tab (oRing k) 62 62 = 1 →
    s.mark k + s.tab (oRing k) 15 8 ≤ (s.ringSpan k).2 → s.mark k ≤ (s.ringSpan k).1 + 254 * s.tab (oRing k) 15 8 →
    ∃ t : State, exec (.dreqPulse k) s = .next t ∧
      t.driven = .dreq (s.tab (oRing k) 60 60) (s.tab (oRing k) 59 56) :: s.driven ∧
      t.mark k = s.mark k + s.tab (oRing k) 15 8 ∧ { t with marks := s.marks, driven := s.driven } = s) ∧
  (∀ (k : Nat) (s : State), s.tab (oRing k) 63 63 = 0 ∨ s.tab (oRing k) 62 62 = 0 ∨
    (s.ringSpan k).2 < s.mark k + s.tab (oRing k) 15 8 ∨ (s.ringSpan k).1 + 254 * s.tab (oRing k) 15 8 < s.mark k →
      exec (.dreqPulse k) s = .next s) ∧
  (∀ (p : Nat) (s : State), s.openPartner p = true →
    ∃ u : State, exec (.scoreboardRelease p) s = .next (u.settle p) ∧
      (u.port p).reqs = (s.port p).reqs.map (fun r => { r with rows := r.rows.map (fun w =>
        if w.held = true ∧ s.rowHeld w = false then { w with held := false, wasHeld := true } else w) }) ∧
      (∀ q, q ≠ p → u.port q = s.port q) ∧ { u with ports := s.ports } = s) ∧
  (∀ (i p : Nat) (r : Req) (s : State), s.closeOf i = some (p, r) → s.sbValid i = true →
      (∀ q ∈ (s.port p).before r.uid, q.visible 0 = true) →
    (s.port p).released r = true →
    ∃ u : State, exec (.rangeCloseInForce i) s = .next (u.settle p) ∧ u.sbValid i = false ∧
      (u.port p).reqs = (s.port p).reqs.map (fun q => if q.uid = r.uid then { q with ans := some (0, 0), phase := .applied } else q) ∧
      (hCond r.h = true → u.field oSbAborts 31 0 = min (s.field oSbAborts 31 0 + 1) (2 ^ 32 - 1)) ∧
      (hCond r.h = false → u.reg oSbAborts = s.reg oSbAborts) ∧
      (∀ n, s.sbRegion i = some n → u.inflight n = (s.inflight n - 1) % 65536) ∧
      (∀ j, j < 256 → j ≠ i → u.sbValid j = s.sbValid j) ∧ u.mem = s.mem) ∧
  (∀ (i p : Nat) (r : Req) (s : State), s.closeOf i = some (p, r) → s.sbValid i = false →
    ∃ u : State, exec (.rangeCloseInForce i) s = .next (u.settle p) ∧ { u with ports := s.ports } = s ∧
      (u.port p).reqs = (s.port p).reqs.map (fun q =>
        if q.uid = r.uid then { q with ans := some (11, 0), phase := .applied } else q))

/-- O22. STREAM_PREFETCH of an open tracker keeps what the tracker holds or has in flight within 8 lines for each KiB of DEPTH +
1, keeps its snapshot and what has been delivered, and touches nothing but that tracker and the groups' wait queues; a next
step's first row, where nothing is fetched yet and it fits that bound and overlaps no range in force, has all its lines
issued. STREAM_STEP_DELIVER, where the next step is asked for, all its lines are present and the gating counter has reached
VALUE, moves that step's rows to the request and frees them; otherwise, and where no step is asked for, it changes nothing. -/
def Obligations.StreamsPrefetchAndDeliver : Prop :=
  (∀ (p k : Nat) (s : State), s.openPartner p = true → isMp p = true → ((s.port p).stream k).isOpen = true →
    ∃ t : State, exec (.streamPrefetch p k) s = .next t ∧
      { (t.port p).stream k with fetched := ((s.port p).stream k).fetched } = (s.port p).stream k ∧
      (((s.port p).stream k).lineCount ≤ 8 * (((s.port p).stream k).depth + 1) →
        ((t.port p).stream k).lineCount ≤ 8 * (((s.port p).stream k).depth + 1)) ∧
      (∀ j, j ≠ k → (t.port p).stream j = (s.port p).stream j) ∧
      { t.port p with streams := (s.port p).streams } = s.port p ∧ (∀ q, q ≠ p → t.port q = s.port q) ∧
      (∀ g, { t.group g with waitq := (s.group g).waitq } = s.group g ∧ (s.group g).waitq <+: (t.group g).waitq) ∧
      { t with ports := s.ports, groups := s.groups } = s ∧
      (∀ a as, ((s.port p).stream k).fetched = [] → ((s.port p).stream k).steps.getD ((s.port p).stream k).next [] = a :: as →
        (s.rowLines ((s.port p).stream k).rgn a ((s.port p).stream k).rowLen).length ≤ 8 * (((s.port p).stream k).depth + 1) →
        s.rowHeld (Row.todo a (s.rowLines ((s.port p).stream k).rgn a ((s.port p).stream k).rowLen)) = false →
        ∃ w ws fs, ((t.port p).stream k).fetched = (w :: ws) :: fs ∧ w.byte = a ∧ ∀ l ∈ w.lines, l.st = .sent)) ∧
  (∀ (p k g : Nat) (r : Req) (s : State), s.openPartner p = true → isMp p = true → (s.port p).stepNext k = some r →
    s.streamGate ((s.port p).stream k) = some g →
    if ((s.port p).stream k).ready = true ∧ hValue r.h ≤ (s.ctr g).val.toNat then
      ∃ u : State, exec (.streamStepDeliver p k) s = .next (u.settle p) ∧
        ((u.port p).stream k).next = ((s.port p).stream k).next + 1 ∧
        ((u.port p).stream k).fetched = ((s.port p).stream k).fetched.tail ∧
        (u.port p).reqs = (s.port p).reqs.map (fun q => if q.uid = r.uid then
          { q with rows := ((s.port p).stream k).fetched.headD [], rgn := ((s.port p).stream k).rgn,
                   rowLen := ((s.port p).stream k).rowLen, dfmt := ((s.port p).stream k).dfmt, phase := .applied } else q) ∧
        u.counters = s.counters ∧ u.mem = s.mem ∧ (∀ o, o ≠ oMis → o ≠ oMisLast → u.reg o = s.reg o) ∧
        ∀ q, q ≠ p → u.port q = s.port q
    else exec (.streamStepDeliver p k) s = .next s) ∧
  (∀ (p k : Nat) (s : State), (s.port p).stepNext k = none → exec (.streamStepDeliver p k) s = .next s)

/-- O23. FINAL_ADVANCE adds FADD to the counter of the first write of the port that is stored, visible and free to advance, so
that it can be acknowledged, or holds it at its ring's bound. HELD_WAIT_ANSWER answers a held wait OK with the value where its
condition holds, else YIELD with the value, registered, where the port has fewer than 256 waits; else it stays held.
RING_HOLD_APPLY applies a held CNT_ADD, or a held write's advance, that fits its ring, and answers the add with the sum; while
it does not fit no counter changes. -/
def Obligations.AdvancesAndHeldOperations : Prop :=
  (∀ (p : Nat) (r : Req) (s : State), s.openPartner p = true → (s.port p).reqs.find? (s.port p).finalReady = some r →
    ∃ u : State, exec (.finalAdvance p) s = .next (u.settle p) ∧ u.mem = s.mem ∧ (∀ q, q ≠ p → u.port q = s.port q) ∧
      (if s.fits r.sync (hFadd r.h) = true then
        (u.ctr r.sync).val.toNat = min ((s.ctr r.sync).val.toNat + hFadd r.h) (2 ^ 64 - 1) ∧
        (∀ m, m ≠ r.sync → u.ctr m = s.ctr m) ∧ (∀ o, o ≠ oSyncErr → u.reg o = s.reg o) ∧
        (u.port p).reqs = (s.port p).reqs.map (fun q => if q.uid = r.uid then { q with advanced := true, phase := .active } else q)
      else u.counters = s.counters ∧ (∀ o, o ≠ oHold → u.reg o = s.reg o) ∧
        (u.port p).reqs = (s.port p).reqs.map (fun q => if q.uid = r.uid then { q with phase := .held } else q))) ∧
  (∀ (p : Nat) (r : Req) (s : State), (s.port p).heldWait = some r →
    ∃ u : State, exec (.heldWaitAnswer p) s = .next (u.settle p) ∧ u.counters = s.counters ∧ u.flags = s.flags ∧ u.mem = s.mem ∧
      (if (if hOpc r.h = opFlgWait then (s.flg r.sync).val != hCond r.h
          else decide (hValue r.h ≤ (s.ctr r.sync).val.toNat)) = true then
        u.waiters = s.waiters ∧ (u.port p).reqs = (s.port p).reqs.map (fun q => if q.uid = r.uid then
          { q with phase := .applied, ans := some (0, if hOpc r.h = opFlgWait then BitVec.ofNat 64 (b2n (s.flg r.sync).val)
            else (s.ctr r.sync).val) } else q)
      else if (s.waiters.filter fun v => v.port == p).length < 256 then
        (∃ w, u.waiters = s.waiters ++ [w] ∧ w.port = p ∧ w.tag = hTag r.h ∧ w.phys = r.sync ∧ w.met = none) ∧
        (u.port p).reqs = (s.port p).reqs.map (fun q => if q.uid = r.uid then
          { q with phase := .yielded, ans := some (2, if hOpc r.h = opFlgWait then BitVec.ofNat 64 (b2n (s.flg r.sync).val)
            else (s.ctr r.sync).val) } else q)
      else u.waiters = s.waiters ∧
        (u.port p).reqs = (s.port p).reqs.map (fun q => if q.uid = r.uid then { q with phase := .held } else q))) ∧
  (∀ (p : Nat) (r : Req) (s : State), p ≠ 10 → (s.port p).ringHeld = some r → hOpc r.h = opCntAdd → r.sync < 65536 →
    ∃ u : State, exec (.ringHoldApply p) s = .next (u.settle p) ∧ u.mem = s.mem ∧
      (if s.fits r.sync (hValue r.h) = true then
        (u.ctr r.sync).val.toNat = min ((s.ctr r.sync).val.toNat + hValue r.h) (2 ^ 64 - 1) ∧
        (u.port p).reqs = (s.port p).reqs.map (fun q => if q.uid = r.uid then
          { q with phase := .applied, ans := some (0, (u.ctr r.sync).val) } else q)
      else u.counters = s.counters ∧ u.regs = s.regs)) ∧
  (∀ (p : Nat) (r : Req) (s : State), p ≠ 10 → (s.port p).ringHeld = some r → hOpc r.h ≠ opCntAdd →
    s.fits r.sync (hFadd r.h) = true →
    ∃ u : State, exec (.ringHoldApply p) s = .next (u.settle p) ∧
      (u.ctr r.sync).val.toNat = min ((s.ctr r.sync).val.toNat + hFadd r.h) (2 ^ 64 - 1) ∧
      (u.port p).reqs = (s.port p).reqs.map (fun q => if q.uid = r.uid then { q with advanced := true, phase := .active } else q)) ∧
  (∀ s : State, s.timedQ.find? (fun t => t.held) = none → s.rp.batches.find? (fun e => e.2.ringHeld) = none →
    exec (.ringHoldApply 10) s = .next s)

/-- O24. The waits of a port that WAIT_RELEASE releases are those whose condition has come to hold, whose YIELD was driven in an
earlier cycle and whose READY is not queued, of the earliest cycle in which such a wait came to hold. It pulses once each wake
line that a released wait without YIELD names and no other line, and takes those waits out of the table. It queues one READY
event for each released wait with YIELD, in table order, until 64 are queued; those waits stay in the table, marked. The
others with YIELD are dropped and leave the table, with ERR.EVT_OVF set. No counter, flag or memory byte changes, and no
register but the scope-mismatch ones and ERR.EVT_OVF. -/
def Obligations.WaitsReleasedTogether : Prop :=
  ∀ (p : Nat) (s : State),
    let rel (w : Waiter) : Prop := w.port = p ∧ w.met.isSome = true ∧ w.queued = false ∧ ∃ a, w.told = some a ∧ a < s.now
    let ys := (s.dueWaits p).filter fun w => w.yield
    let room := 64 - (s.port p).evtq.length
    let gone := (s.dueWaits p).filter (fun w => !w.yield) ++ ys.drop room
    (∀ w ∈ s.waiters, w ∈ s.dueWaits p ↔ rel w ∧ ∀ v ∈ s.waiters, rel v → ∀ a b, w.met = some a → v.met = some b → a ≤ b) ∧
    ∃ t : State, exec (.waitRelease p) s = .next t ∧
      t.waiters = (s.waiters.filter fun w => !gone.any fun v => v.uid == w.uid).map
        (fun w => if (ys.take room).any (fun v => v.uid == w.uid) = true then { w with queued := true } else w) ∧
      (∃ ls : List Nat, t.driven = ls.map (fun l => Out.wake p l) ++ s.driven ∧ ls.Nodup ∧
        ∀ l, l ∈ ls ↔ ∃ w ∈ s.dueWaits p, w.yield = false ∧ w.wline = l) ∧
      t.port p = { s.port p with
        evtq := (s.port p).evtq ++ (ys.take room).map fun w =>
          ⟨0, w.ctx, w.tag, BitVec.ofNat 64 (w.sid + b2n w.isFlag * 65536), some w.uid⟩,
        evtOvf := (s.port p).evtOvf || decide (room < ys.length) } ∧
      t.bit (oPErr p) 3 = (s.bit (oPErr p) 3 || decide (room < ys.length)) ∧
      (∀ k, k < 64 → k ≠ 3 → t.bit (oPErr p) k = s.bit (oPErr p) k) ∧
      (∀ q, q ≠ p → t.port q = s.port q) ∧ t.counters = s.counters ∧ t.flags = s.flags ∧ t.mem = s.mem ∧
      ∀ o, o ≠ oMis → o ≠ oMisLast → o ≠ oPErr p → t.reg o = s.reg o

/-- O25. Where RP takes a data or closing packet and check 1, 2 or 3 of the owner fails, it drives the RNACK that echoes the
packet with the check's code, counts LATE in RMT.LATE with sender and window and any other code but RETRY in RMT.REFUSED, and
stores, allocates and holds nothing. With no batch entry found or free it answers RETRY and changes no register. -/
def Obligations.OwnerRefusesPackets : Prop :=
  ∀ e ∈ ([(fun h d => .rwrite h d, false), (fun h d => .closingPacket h d, true)] : List ((Pkt → List Byte → Instr) × Bool)),
    ∀ (h : Pkt) (d : List Byte) (s : State), s.LinkTakes false h → s.LinkReady false → s.rp.held = [] → kType h = 1 →
    kBit4 h = e.2 → kSiid h ≠ s.iid → s.iid < 2 ^ 15 →
    (∀ c, s.ownerCheck h = .refuse c →
      ∃ (t : State) (a : Pkt), exec (e.1 h d) s = .next t ∧ s.SentOne t false a [] ∧ isRnack a h s.iid c ∧
        (c = 9 → t.field oRmtLate 31 0 = min (s.field oRmtLate 31 0 + 1) (2 ^ 32 - 1) ∧
          t.field oRmtLate 62 40 = kSiid h * 256 + kWin h) ∧
        (c ≠ 9 → t.field oRefused 31 0 = min (s.field oRefused 31 0 + 1) (2 ^ 32 - 1) ∧ t.field oRefused 35 32 = c) ∧
        (∀ o, o ≠ oRmtLate → o ≠ oRefused → t.reg o = s.reg o) ∧ { t.rp with link := s.rp.link } = s.rp ∧
        { t with rp := s.rp, pw := s.pw, driven := s.driven, regs := s.regs } = s) ∧
    (∀ i, s.ownerCheck h = .pass i → s.batchEntry h = none →
      ∃ (t : State) (a : Pkt), exec (e.1 h d) s = .next t ∧ s.SentOne t false a [] ∧ isRnack a h s.iid 1 ∧
        { t.rp with link := s.rp.link } = s.rp ∧ { t with rp := s.rp, pw := s.pw, driven := s.driven } = s)

/-- O26. A data packet that passes every check of the owner is answered OK at once; its segment's lines are queued at their groups
as agent 10, counted with its batch entry and in its window's PENDING. One that fails check 6, 7 or 8 is answered with that
code, a code but RETRY counts it done in its batch entry with that code, and no access is queued. Neither changes a byte of
memory. -/
def Obligations.OwnerTakesSegments : Prop :=
  ∀ (h : Pkt) (d : List Byte) (i b : Nat) (v s : State), s.LinkTakes false h → s.LinkReady false → s.rp.held = [] →
    kType h = 1 →
    kBit4 h = false → kSiid h ≠ s.iid → s.iid < 2 ^ 15 → s.ownerCheck h = .pass i → s.batchEntry h = some (b, v) →
    (s.segCode i h = 0 →
      ∃ (t : State) (a : Pkt) (f : PkFly), exec (.rwrite h d) s = .next t ∧ s.SentOne t false a [] ∧ isRnack a h s.iid 0 ∧
        t.rp.batches = v.rp.batches ∧ t.rp.fly = s.rp.fly ++ [f] ∧ f.win = kWin h ∧ f.batch = some b ∧ f.code = 0 ∧
        f.left = (s.segLines h).length ∧ t.tab (oSnd (kWin h)) 47 32 = (s.tab (oSnd (kWin h)) 47 32 + 1) % 2 ^ 16 ∧
        (∀ l ∈ s.segLines h, ∃ x ∈ (t.group (groupOf l.lb)).waitq, x.agent = 10 ∧ x.la = l.la ∧ x.dest = .batch f.id) ∧
        (∀ g, (s.group g).waitq <+: (t.group g).waitq) ∧ t.mem = s.mem ∧ t.ports = s.ports ∧
        ∀ o, o ≠ oSnd (kWin h) → t.reg o = s.reg o) ∧
    (s.segCode i h ≠ 0 →
      ∃ (t : State) (a : Pkt), exec (.rwrite h d) s = .next t ∧ s.SentOne t false a [] ∧ isRnack a h s.iid (s.segCode i h) ∧
        t.rp.batches = (if s.segCode i h = 1 then v else v.batchDone b (s.segCode i h)).rp.batches ∧ t.rp.fly = s.rp.fly ∧
        t.groups = s.groups ∧ t.mem = s.mem ∧ t.ports = s.ports ∧ ∀ o, o ≠ oRefused → t.reg o = s.reg o)

/-- O27. A closing packet that passes the owner's checks and has FADD above 0 is held in its batch entry, unanswered, from this
turn on; with FADD 0 it is answered FORMAT. A signal that passes them, whose ID is local and whose operation fits it, enters
the timed queue with its due time, at most 2,600 ns ahead of FTIME, LATE or EARLY noted, and is answered OK; one whose ID is
not, or whose operation does not fit, is answered CTX. No counter or flag changes. -/
def Obligations.OwnerHoldsClosingsAndSignals : Prop :=
  (∀ (h : Pkt) (d : List Byte) (i b : Nat) (v s : State), s.LinkTakes false h → s.LinkReady false → s.rp.held = [] →
    kType h = 1 →
    kBit4 h = true → kSiid h ≠ s.iid → s.iid < 2 ^ 15 → s.ownerCheck h = .pass i → s.batchEntry h = some (b, v) →
    if fld (natLE (d.take 8)) 63 48 = 0 then
      ∃ (t : State) (a : Pkt), exec (.closingPacket h d) s = .next t ∧ s.SentOne t false a [] ∧ isRnack a h s.iid 6 ∧
        t.rp.batches = v.rp.batches ∧ t.counters = s.counters
    else ∃ (t : State) (e : OBatch), exec (.closingPacket h d) s = .next t ∧ s.SentNone t false ∧
      tfind t.rp.batches b = some e ∧ e.closing = some (h, d) ∧ e.since = s.turn ∧
      (∀ c, c ≠ b → tfind t.rp.batches c = tfind v.rp.batches c) ∧ t.counters = s.counters ∧ t.regs = s.regs ∧ t.mem = s.mem) ∧
  (∀ (h : Pkt) (d : List Byte) (f : Word) (i n : Nat) (s : State), s.LinkTakes false h → s.LinkReady false → s.rp.held = [] →
    kType h = 2 → kSiid h ≠ s.iid → s.iid < 2 ^ 15 → s.ownerCheck h = .pass i →
      s.translate i (kBit4 h) false (kRsid h) = .local n →
    kBit4 h = (kOp h != 0) → s.timedQ.length < 512 →
    ∃ (t : State) (a : Pkt) (q : TSig), exec (.rsig h d f) s = .next t ∧ s.SentOne t false a [] ∧ isRnack a h s.iid 0 ∧
      t.timedQ = s.timedQ ++ [q] ∧ q.due = min (natLE (d.take 8)) (f.toNat + 2600) ∧ q.isFlag = kBit4 h ∧ q.op = kOp h ∧
      q.rsid = kRsid h ∧ q.siid = kSiid h ∧ q.sport = kSport h ∧ q.held = false ∧ t.ftime = f ∧
      t.bit oSyncErr 1 = (s.bit oSyncErr 1 || decide (natLE (d.take 8) ≤ f.toNat)) ∧
      t.bit oSyncErr 2 = (s.bit oSyncErr 2 || decide (f.toNat + 2600 < natLE (d.take 8))) ∧
      t.counters = s.counters ∧ t.flags = s.flags ∧ t.mem = s.mem ∧ t.ports = s.ports) ∧
  (∀ (h : Pkt) (d : List Byte) (f : Word) (i : Nat) (s : State), s.LinkTakes false h → s.LinkReady false → s.rp.held = [] →
    kType h = 2 → kSiid h ≠ s.iid → s.iid < 2 ^ 15 → s.ownerCheck h = .pass i →
    (∀ n, s.translate i (kBit4 h) false (kRsid h) ≠ .local n) ∨ kBit4 h ≠ (kOp h != 0) →
    ∃ (t : State) (a : Pkt), exec (.rsig h d f) s = .next t ∧ s.SentOne t false a [] ∧ isRnack a h s.iid 10 ∧
      t.timedQ = s.timedQ ∧ t.counters = s.counters ∧ t.flags = s.flags)

/-- O28. RWRITE_SEND keeps in the send buffer each packet it sends of the port's next remote write, for the instance, window and
generation its address names; the buffer never passes 512 packets and its tags stay distinct; where a first segment is there
with room and a batch record, at least one goes. RSIG_SEND keeps the RSIG of a routed operation in the send buffer; where the
link can take it in this cycle, it stamps it with FTIME plus the route's delay, drives it and answers the operation OK, at
once or from the send buffer later; where the link can not, the RSIG stays there unstamped and the operation unanswered. Where
the route is this instance's own, the packet goes to its own checks and the operation is answered OK. -/
def Obligations.RemoteWritesAndSignalsSent : Prop :=
  (∀ (p : Nat) (s : State), (s.port p).remoteNext = none → exec (.rwriteSend p) s = .next s) ∧
  (∀ (p : Nat) (r : Req) (s : State), s.openPartner p = true → s.open 10 = true → s.iid < 2 ^ 15 →
    (s.port p).remoteNext = some r → (s.port p).req r.uid = some r →
    ∃ (u : State) (new : List Sent), exec (.rwriteSend p) s = .next (u.settle p) ∧ u.rp.sendBuf = s.rp.sendBuf ++ new ∧
      (∀ w ∈ new, w.port = p ∧ w.uid = some r.uid ∧ kType w.h = 1 ∧ kSiid w.h = s.iid ∧ kDiid w.h = rIid (hAddr r.h) ∧
        kSport w.h = p ∧ kWin w.h = rWin (hAddr r.h) ∧ kGen w.h = rGen (hAddr r.h)) ∧
      (s.rp.sendBuf.length ≤ 512 → u.rp.sendBuf.length ≤ 512) ∧
      ((s.rp.sendBuf.map fun w => w.ptag).Nodup → (u.rp.sendBuf.map fun w => w.ptag).Nodup) ∧
      (s.sendRoom = true → r.segs < r.segCount →
        (r.segment (widthW p) (r.segs / segsPerRow r.rowLen) (r.segs % segsPerRow r.rowLen)).isSome = true →
        (s.useRec p (rIid (hAddr r.h)) (rWin (hAddr r.h))).isSome = true → new ≠ []) ∧
      u.mem = s.mem ∧ u.counters = s.counters ∧ ∀ q, q ≠ p → u.port q = s.port q) ∧
  (∀ (p : Nat) (f : Word) (r : Req) (s : State), s.openPartner p = true → s.open 10 = true → s.iid < 2 ^ 15 →
    (s.port p).routedNext = some r → s.sendRoom = true → s.heldSignal r = none → fld (r.sync - 65536) 58 44 ≠ s.iid →
    s.LinkReady false →
    ∃ (u : State) (w : Sent), exec (.rsigSend p f) s = .next (u.settle p) ∧ u.driven = .ltx false w.h w.data :: s.driven ∧
      u.rp.sendBuf = s.rp.sendBuf ++ [w] ∧ w.uid = none ∧ w.sig = none ∧ w.since = s.turn ∧ w.port = p ∧ kType w.h = 2 ∧
      kDiid w.h = fld (r.sync - 65536) 58 44 ∧
      kWin w.h = fld (r.sync - 65536) 43 36 ∧ kRsid w.h = fld (r.sync - 65536) 15 0 ∧
      natLE (w.data.take 8) = (f.toNat + s.routeDelay (r.sync - 65536)) % 2 ^ 64 ∧
      natLE (w.data.drop 8) = (if hOpc r.h = opCntAdd then hValue r.h % 2 ^ 64 else 0) ∧
      (u.port p).reqs = (s.port p).reqs.map (fun q => if q.uid = r.uid then { q with ans := some (0, 0), phase := .applied } else q)) ∧
  (∀ (p : Nat) (f : Word) (r : Req) (s : State), s.openPartner p = true → s.open 10 = true → s.iid < 2 ^ 15 →
    (s.port p).routedNext = some r → s.sendRoom = true → s.heldSignal r = none → fld (r.sync - 65536) 58 44 ≠ s.iid →
    s.canSend false = false →
    ∃ (t : State) (w : Sent), exec (.rsigSend p f) s = .next t ∧ t.rp.sendBuf = s.rp.sendBuf ++ [w] ∧ w.sig = some r.uid ∧
      w.since = s.turn ∧ w.data = [] ∧ t.driven = s.driven ∧ t.ports = s.ports ∧ t.counters = s.counters ∧ t.ftime = f) ∧
  (∀ (p : Nat) (f : Word) (r : Req) (w : Sent) (s : State), s.openPartner p = true → s.open 10 = true →
    (s.port p).routedNext = some r → s.heldSignal r = some w → kDiid w.h ≠ s.iid → s.canSend false = true →
    ∃ (u : State) (v : Sent), exec (.rsigSend p f) s = .next (u.settle p) ∧ u.driven = .ltx false v.h v.data :: s.driven ∧
      v.h = w.h ∧ v.ptag = w.ptag ∧ v.since = w.since ∧ v.sig = none ∧ v ∈ u.rp.sendBuf ∧
      u.rp.sendBuf.length = s.rp.sendBuf.length ∧
      natLE (v.data.take 8) = (f.toNat + s.routeDelay (r.sync - 65536)) % 2 ^ 64 ∧
      (u.port p).reqs = (s.port p).reqs.map (fun q => if q.uid = r.uid then { q with ans := some (0, 0), phase := .applied } else q)) ∧
  (∀ (p : Nat) (f : Word) (r : Req) (s : State), s.openPartner p = true → s.open 10 = true → s.iid < 2 ^ 15 →
    (s.port p).routedNext = some r → s.sendRoom = true → s.heldSignal r = none → fld (r.sync - 65536) 58 44 = s.iid →
    ∃ u : State, exec (.rsigSend p f) s = .next (u.settle p) ∧ u.driven = s.driven ∧ u.counters = s.counters ∧
      (u.port p).reqs = (s.port p).reqs.map (fun q => if q.uid = r.uid then { q with ans := some (0, 0), phase := .applied } else q))

/-- O29. An RNACK whose tag and echoes are those of no packet of the send buffer changes nothing there. RETRY marks the packet to
be resent a turn later. Any other answer forgets the packet and enters the code in its write, or sets SIG_REF for a signal
refused. RETRY_RESEND sends a packet due again, counted in RMT.RESEND. RESPONSE_TIMEOUT forgets a packet unanswered for RTO
turns, sets RMT.ERR.RTO, and SIG_LOST for a signal, whose operation it answers OK where it has not been. LINK_LOST on RP sends
an RNACK, or the packet of the send buffer, again. -/
def Obligations.SenderLearnsAnswers : Prop :=
  (∀ (h : Pkt) (s : State), s.LinkTakes false h → kType h = 3 → s.rp.sendBuf.find? (fun w => w.answeredBy h) = none →
    ∃ t : State, exec (.rnack h) s = .next t ∧ s.SentNone t false ∧ { t.rp with link := s.rp.link } = s.rp ∧
      t.ports = s.ports ∧ t.regs = s.regs ∧ t.mem = s.mem) ∧
  (∀ (h : Pkt) (w : Sent) (s : State), s.LinkTakes false h → kType h = 3 → kCode h = 1 →
    s.rp.sendBuf.find? (fun w => w.answeredBy h) = some w →
    ∃ t : State, exec (.rnack h) s = .next t ∧ s.SentNone t false ∧ t.ports = s.ports ∧ t.regs = s.regs ∧
      t.rp.sendBuf = s.rp.sendBuf.map (fun x => if x.ptag = w.ptag then { x with retryAt := some (s.turn + 1) } else x)) ∧
  (∀ (h : Pkt) (w : Sent) (s : State), s.LinkTakes false h → kType h = 3 → kCode h ≠ 1 →
    s.rp.sendBuf.find? (fun w => w.answeredBy h) = some w →
    ∃ u : State, exec (.rnack h) s = .next ((u.settle w.port).repayLink false) ∧
      u.rp.sendBuf = s.rp.sendBuf.filter (fun x => x.ptag != w.ptag) ∧ u.mem = s.mem ∧
      (w.uid = none → u.ports = s.ports ∧ u.bit oRmtErr 3 = (s.bit oRmtErr 3 || kCode h != 0) ∧
        ∀ o, o ≠ oRmtErr → u.reg o = s.reg o) ∧
      (∀ k r, w.uid = some k → (s.port w.port).req k = some r →
        ∃ r', (u.port w.port).req k = some r' ∧ r'.codes = kCode h :: r.codes ∧ r'.outPk = r.outPk - 1 ∧ r'.h = r.h)) ∧
  (∀ (tag t : Nat) (w : Sent) (s : State), s.open 10 = true → s.rp.sendBuf.find? (fun w => w.ptag == tag) = some w →
    w.retryAt = some t → t ≤ s.turn →
    ∃ u : State, exec (.retryResend tag) s = .next
        (if kDiid w.h = s.iid then u.arrivePkt w.h w.data s.ftime else u.send false w.h w.data) ∧
      u.rp = { s.rp with sendBuf := s.rp.sendBuf.map fun x => if x.ptag = w.ptag then { x with retryAt := none } else x } ∧
      u.field oResend 31 0 = min (s.field oResend 31 0 + 1) (2 ^ 32 - 1) ∧ { u with rp := s.rp, regs := s.regs } = s) ∧
  (∀ (tag : Nat) (w : Sent) (s : State), s.rp.sendBuf.find? (fun w => w.ptag == tag) = some w →
    if w.since + max 1 (s.field oRmtCfg 15 0) ≤ s.turn then
      ∃ u : State, exec (.responseTimeout tag) s = .next ((u.settle w.port).setBit oRmtErr 1) ∧
        u.rp.sendBuf = s.rp.sendBuf.filter (fun x => x.ptag != w.ptag) ∧ u.mem = s.mem ∧
        u.bit oRmtErr 4 = (s.bit oRmtErr 4 || w.uid.isNone) ∧
        (∀ k, w.uid = none → w.sig = some k → (u.port w.port).reqs = (s.port w.port).reqs.map (fun q =>
          if q.uid = k then { q with ans := some (0, 0), phase := .applied } else q))
    else exec (.responseTimeout tag) s = .next s) ∧
  (∀ (h : Pkt) (s : State), s.hasPort 10 = true → s.pins.poreset = false → kType h = 3 →
    exec (.linkLost false h) s = .next (s.send false h [])) ∧
  (∀ (h : Pkt) (w : Sent) (s : State), s.hasPort 10 = true → s.pins.poreset = false → kType h ≠ 3 →
    s.rp.sendBuf.find? (fun w => w.sig.isNone && w.ptag == kPtag h && kType w.h == kType h) = some w → kDiid w.h ≠ s.iid →
        s.LinkReady false →
    ∃ t : State, exec (.linkLost false h) s = .next t ∧ t.driven = .ltx false w.h w.data :: s.driven ∧
      t.field oResend 31 0 = min (s.field oResend 31 0 + 1) (2 ^ 32 - 1) ∧ t.rp.sendBuf.length = s.rp.sendBuf.length)

/-- O30. BATCH_CLOSE leaves a batch that lacks packets alone. A complete one whose packets were all stored adds FADD to its
counter, as its window's context translates it, and is answered with its worst code and freed; one with a failed packet is
answered and freed with no counter changed; one its ring does not let in is held, counted once. BATCH_TIMEOUT answers a
closing packet held for BTO turns ECC and frees its batch, RMT.ERR.BTO set. RSIG_APPLY applies the first due signal where it
fits, or holds it. -/
def Obligations.BatchesAndSignalsApplied : Prop :=
  (∀ (b : Nat) (e : OBatch) (h : Pkt) (d : List Byte) (s : State), tfind s.rp.batches b = some e → e.closing = some (h, d) →
    e.done < natLE (d.take 4) → exec (.batchClose b) s = .next s) ∧
  (∀ (b i k : Nat) (e : OBatch) (h : Pkt) (d : List Byte) (s : State), tfind s.rp.batches b = some e → e.closing = some (h, d) →
    natLE (d.take 4) ≤ e.done → s.rpHeld = false → s.slotOf (s.winCtx e.win) = some i →
    s.translate i false false (fld (natLE (d.take 8)) 47 32) = .local k →
    if e.worst = 0 ∨ e.worst = 12 then
      if s.fits k (fld (natLE (d.take 8)) 63 48) = true then
        ∃ v : State, exec (.batchClose b) s = .next ((v.rnack h e.worst).freeBatch b) ∧
          (v.ctr k).val.toNat = min ((s.ctr k).val.toNat + fld (natLE (d.take 8)) 63 48) (2 ^ 64 - 1) ∧
          (∀ m, m ≠ k → v.ctr m = s.ctr m) ∧ v.flags = s.flags ∧ v.rp = s.rp ∧ v.mem = s.mem
      else ∃ t : State, exec (.batchClose b) s = .next t ∧ t.counters = s.counters ∧ t.driven = s.driven ∧
        tfind t.rp.batches b = some { e with ringHeld := true } ∧
        t.field oHold 31 0 = min (s.field oHold 31 0 + 1) (2 ^ 32 - 1)
    else exec (.batchClose b) s = .next ((s.rnack h e.worst).freeBatch b)) ∧
  (∀ (b : Nat) (e : OBatch) (h : Pkt) (d : List Byte) (s : State), tfind s.rp.batches b = some e → e.closing = some (h, d) →
    if e.since + max 1 (s.field oRmtCfg 47 32) ≤ s.turn then
      exec (.batchTimeout b) s = .next (((s.rnack h 3).freeBatch b).setBit oRmtErr 2) ∧
      tfind (((s.rnack h 3).freeBatch b).setBit oRmtErr 2).rp.batches b = none
    else exec (.batchTimeout b) s = .next s) ∧
  (∀ (f : Word) (s : State), s.rpHeld = false → (s.sample f).dueSignals = [] → exec (.rsigApply f) s = .next (s.sample f)) ∧
  (∀ (f : Word) (q : TSig) (qs : List TSig) (n : Nat) (s : State), s.rpHeld = false → (s.sample f).dueSignals = q :: qs →
    s.sigPhys q = some n →
    if q.isFlag = true then
      ∃ u : State, exec (.rsigApply f) s = .next u.afterSignal ∧ (u.flg n).val = (q.op == 1) ∧
        (∀ m, m ≠ n → u.flg m = s.flg m) ∧ u.counters = s.counters ∧ u.timedQ.length + 1 = s.timedQ.length
    else if s.fits n q.val.toNat = true then
      ∃ u : State, exec (.rsigApply f) s = .next u.afterSignal ∧
        (u.ctr n).val.toNat = min ((s.ctr n).val.toNat + q.val.toNat) (2 ^ 64 - 1) ∧ (∀ m, m ≠ n → u.ctr m = s.ctr m) ∧
        u.flags = s.flags ∧ u.timedQ.length + 1 = s.timedQ.length
    else ∃ t : State, exec (.rsigApply f) s = .next t ∧ t.counters = s.counters ∧ t.timedQ.length = s.timedQ.length ∧
      t.rpHeld = true ∧ t.field oHold 31 0 = min (s.field oHold 31 0 + 1) (2 ^ 32 - 1))

/-- O31. In PS0 with no power-state entry under way, a rise of LINK_UP gives the link 64 receive credits and no transmit credit,
and changes nothing else. A fall takes all credits; at RP it empties the send buffer, giving each packet up as a response
timeout does, and sets RMT.ERR.DOWN where there was one; at TP a bound pair goes DOWN. A report of the level as it is changes
nothing. A transmit credit is added; in a cycle that is not gated and in which nothing has been driven the oldest waiting
packet is driven with it. LINK_LOST on TP: a TACK goes out again as its header says, a TWRITE or request of TP from its copy,
an answer to a control message as it was sent; for a TDATA its line is read again by agent 11; each counts 1 in TWIN.OUT. -/
def Obligations.LinksChange : Prop :=
  (∀ (tp : Bool) (s : State), exec (.linkUpChange tp (s.link tp).up) s = .next s) ∧
  (∀ (tp : Bool) (s : State), s.hasPort (linkPort tp) = true → s.pins.poreset = false → s.pw.entry = none →
    s.ps = 0 → (s.link tp).up = false →
    exec (.linkUpChange tp true) s = .next (s.setLink tp { s.link tp with up := true, txCrd := 0, rxCrd := 64 })) ∧
  (∀ s : State, s.hasPort 10 = true → s.pins.poreset = false → s.pw.entry = none → s.ps = 0 → s.rp.link.up = true →
    let u := s.setLink false { s.rp.link with up := false, txCrd := 0, rxCrd := 0 }
    exec (.linkUpChange false false) s = .next
      (if s.rp.sendBuf = [] then u else (foldState State.loseSent s.rp.sendBuf u).setBit oRmtErr 0) ∧
    (foldState State.loseSent s.rp.sendBuf u).rp.sendBuf = [] ∧
    (foldState State.loseSent s.rp.sendBuf u).rp.link.up = false ∧
    (foldState State.loseSent s.rp.sendBuf u).mem = s.mem) ∧
  (∀ s : State, s.hasPort 11 = true → s.pins.poreset = false → s.pw.entry = none → s.ps = 0 → s.tp.link.up = true →
    ∃ u : State, exec (.linkUpChange true false) s = .next u.settleAll ∧ u.tp.link.up = false ∧ u.tp.link.txCrd = 0 ∧
      u.tp.link.rxCrd = 0 ∧ u.twin = (if s.twin = 0 then 0 else 2) ∧
      (s.twin ≠ 0 → s.twin ≠ 2 → u.bit oTwinErr 0 = true)) ∧
  (∀ (tp : Bool) (s : State), s.hasPort (linkPort tp) = true → s.pins.poreset = false → (s.link tp).up = true →
    ((s.link tp).txq = [] ∨ s.linkCycle = false ∨ (s.link tp).sentNow = true →
      exec (.linkTxCredit tp) s = .next (s.setLink tp { s.link tp with txCrd := (s.link tp).txCrd + 1 })) ∧
    (∀ h d rest, (s.link tp).txq = (h, d) :: rest → s.linkCycle = true → (s.link tp).sentNow = false →
      exec (.linkTxCredit tp) s = .next
        ((s.setLink tp { s.link tp with txq := rest, sentNow := true }).drive (.ltx tp h d)))) ∧
  (∀ (h : Pkt) (s : State), s.hasPort 11 = true → s.pins.poreset = false → s.LinkReady true →
    (kType h = 9 → ∃ t : State, exec (.linkLost true h) s = .next t ∧ t.driven = .ltx true h [] :: s.driven ∧
      t.field oTwinOut 47 16 = min (s.field oTwinOut 47 16 + 1) (2 ^ 32 - 1) ∧ t.mem = s.mem ∧ t.ports = s.ports) ∧
    (∀ w, kType h = 8 ∨ kType h = 10 →
      s.tp.await.find? (fun w => w.sent && w.copy.isNone && w.ttag == kTtag h && kType w.h == kType h && kBit4 w.h == kBit4 h)
        = some w →
      ∃ t : State, exec (.linkLost true h) s = .next t ∧ t.driven = .ltx true w.h w.data :: s.driven ∧
      t.field oTwinOut 47 16 = min (s.field oTwinOut 47 16 + 1) (2 ^ 32 - 1) ∧ t.tp.await = s.tp.await ∧ t.mem = s.mem) ∧
    (∀ d, kType h = 11 → kBit4 h = true → tfind s.tp.ctlSent (kTtag h) = some (h, d) →
      ∃ t : State, exec (.linkLost true h) s = .next t ∧ t.driven = .ltx true h d :: s.driven ∧
      t.field oTwinOut 47 16 = min (s.field oTwinOut 47 16 + 1) (2 ^ 32 - 1) ∧ t.mem = s.mem) ∧
    (∀ n, kType h = 11 → kBit4 h = false → s.iid < 2 ^ 15 → s.regionAt (kLa h * 16) = some n →
      ∃ (t : State) (a : Access) (q : Pkt), exec (.linkLost true h) s = .next t ∧
      (t.group (groupOf (s.place n (kLa h)).1)).waitq = (s.group (groupOf (s.place n (kLa h)).1)).waitq ++ [a] ∧
      a.agent = 11 ∧ a.la = kLa h ∧ (a.lb, a.ix) = s.place n (kLa h) ∧ a.op = .read ∧ a.dest = .fetch q ∧ kType q = 10 ∧
      kSiid q = kDiid h ∧ kLa q = kLa h ∧ kTtag q = kTtag h ∧ t.driven = s.driven ∧
      t.field oTwinOut 47 16 = min (s.field oTwinOut 47 16 + 1) (2 ^ 32 - 1) ∧ t.mem = s.mem))

/-- O32. A TWRITE of the bound peer to a line of a twin region that is not locked, not DEAD and in no held slice is queued at its
group as agent 11, a write of the whole line; one for a line of no twin region or of a DEAD bank is answered ECC, one for a
locked region or a held slice RETRY. A TFETCH is queued as a read by agent 11, or answered ECC for a line of no region and
RETRY in a held slice. A TWRITE or TFETCH of anyone else is discarded. None changes a byte of memory or a register. -/
def Obligations.PeerWritesAndReadsServed : Prop :=
  (∀ (h : Pkt) (d : List Byte) (s : State), s.LinkTakes true h → kType h = 8 → s.fromPeer h = false →
    ∃ t : State, exec (.twrite h d) s = .next t ∧ s.SentNone t true ∧ t.groups = s.groups ∧ t.regs = s.regs ∧ t.mem = s.mem) ∧
  (∀ (h : Pkt) (d : List Byte) (n : Nat) (s : State), s.LinkTakes true h → kType h = 8 → s.fromPeer h = true →
    s.regionAt (kLa h * 16) = some n → s.rgnTwin n = true → s.dead (s.place n (kLa h)).1 = false → s.rgnLock n = false →
    s.held (sliceOf (s.place n (kLa h)).1) = false →
    ∃ (t : State) (a : Access), exec (.twrite h d) s = .next t ∧ s.SentNone t true ∧
      (t.group (groupOf (s.place n (kLa h)).1)).waitq = (s.group (groupOf (s.place n (kLa h)).1)).waitq ++ [a] ∧
      a.agent = 11 ∧ a.la = kLa h ∧ (a.lb, a.ix) = s.place n (kLa h) ∧ a.dest = .mirror h ∧ a.op.whole = true ∧
      (∀ i, i < 128 → (a.op.apply zeroLine).1[i]? = some (d.getD i 0)) ∧ t.regs = s.regs ∧ t.mem = s.mem ∧ t.ports = s.ports) ∧
  (∀ (h : Pkt) (d : List Byte) (s : State), s.LinkTakes true h → s.LinkReady true → s.iid < 2 ^ 15 → kType h = 8 →
    s.fromPeer h = true →
    (s.regionAt (kLa h * 16) = none ∨ (∃ n, s.regionAt (kLa h * 16) = some n ∧
      (s.rgnTwin n = false ∨ s.dead (s.place n (kLa h)).1 = true)) →
      ∃ (t : State) (a : Pkt), exec (.twrite h d) s = .next t ∧ s.SentOne t true a [] ∧ isTwinAnswer a h s.iid 9 3 ∧
        t.groups = s.groups ∧ t.regs = s.regs ∧ t.mem = s.mem) ∧
    (∀ n, s.regionAt (kLa h * 16) = some n → s.rgnTwin n = true → s.dead (s.place n (kLa h)).1 = false →
      s.rgnLock n = true ∨ s.held (sliceOf (s.place n (kLa h)).1) = true →
      ∃ (t : State) (a : Pkt), exec (.twrite h d) s = .next t ∧ s.SentOne t true a [] ∧ isTwinAnswer a h s.iid 9 1 ∧
        t.groups = s.groups ∧ t.regs = s.regs ∧ t.mem = s.mem)) ∧
  (∀ (h : Pkt) (s : State), s.LinkTakes true h → s.LinkReady true → s.iid < 2 ^ 15 → kType h = 10 → kBit4 h = false →
    s.fromPeer h = true →
    match s.regionAt (kLa h * 16) with
    | none => ∃ (t : State) (a : Pkt), exec (.tfetch h) s = .next t ∧ s.SentOne t true a [] ∧ isTwinAnswer a h s.iid 11 3 ∧
        t.groups = s.groups ∧ t.regs = s.regs ∧ t.mem = s.mem
    | some n =>
      if s.held (sliceOf (s.place n (kLa h)).1) = true then
        ∃ (t : State) (a : Pkt), exec (.tfetch h) s = .next t ∧ s.SentOne t true a [] ∧ isTwinAnswer a h s.iid 11 1 ∧
          t.groups = s.groups ∧ t.regs = s.regs ∧ t.mem = s.mem
      else ∃ (t : State) (a : Access), exec (.tfetch h) s = .next t ∧ s.SentNone t true ∧
        (t.group (groupOf (s.place n (kLa h)).1)).waitq = (s.group (groupOf (s.place n (kLa h)).1)).waitq ++ [a] ∧
        a.agent = 11 ∧ a.la = kLa h ∧ a.op = .read ∧ a.dest = .fetch h ∧ t.regs = s.regs ∧ t.mem = s.mem) ∧
  (∀ (h : Pkt) (s : State), s.LinkTakes true h → s.fromPeer h = false →
    ∃ t : State, exec (.tfetch h) s = .next t ∧ s.SentNone t true ∧ t.groups = s.groups ∧ t.regs = s.regs ∧ t.mem = s.mem)

/-- O33. A TACK with RETRY marks its mirror to be resent a turn later; OK ends it, and the line of its write OK with it; any other
code ends the line DUP_OFF (ECC where its bank is DEAD), marks its unit dirty and sets TWIN.ERR.MIRROR. A good TDATA for a
line not written since and not DEAD is stored, valid with fresh codes (zeros where it is BLANK), and TWIN.REPAIR.DONE counts
its row once every line of it is good; a bad one counts FAILED and sets TWIN.ERR. TWIN_RETRY_RESEND sends a mirror that is due
again; TWIN_TIMEOUT of a packet TTO turns unanswered takes a bound pair DOWN, and ends what is awaited in a pair that is not. -/
def Obligations.PeerAnswersTaken : Prop :=
  (∀ (h : Pkt) (w : TAwait) (s : State), s.LinkTakes true h → kType h = 9 → s.fromPeer h = true → s.awaited h false = some w →
    (kTcode h = 1 → ∃ u : State, exec (.tack h) s = .next u.settleAll ∧ s.SentNone u true ∧ u.ports = s.ports ∧
      u.regs = s.regs ∧ u.tp.await = s.tp.await.replace w { w with retryAt := some (s.turn + 1) }) ∧
    (∀ p k i j r, kTcode h ≠ 1 → w.dest = .req p k i j → (s.port p).req k = some r → isRead (hOpc r.h) = false →
      (∀ x ∈ s.tp.await, x.copy = none) →
      ∃ (u : State) (r' : Req), exec (.tack h) s = .next u.settleAll ∧ u.tp.await.length + 1 = s.tp.await.length ∧
        (u.port p).req k = some r' ∧ r'.h = r.h ∧
        (∀ l, (r'.rows.getD i (Row.todo 0 [])).lines[j]? = some l →
          l.st = .done (if kTcode h = 0 then 0 else if s.dead w.lb = true then 3 else 12) []) ∧
        (∀ q, q ≠ p → u.port q = s.port q) ∧ u.mem = s.mem ∧
        (∀ o, o ≠ oRepair → o ≠ oTwinErr → o ≠ oAccErr → (∀ x, o ≠ oAccOvf x) → u.reg o = s.reg o) ∧
        (kTcode h = 0 → u.tp.dirty = s.tp.dirty ∧ u.reg oTwinErr = s.reg oTwinErr) ∧
        (kTcode h ≠ 0 → u.bit oTwinErr 2 = true ∧ tfind u.tp.dirty (w.la / 512) = some true))) ∧
  (∀ (h : Pkt) (d : List Byte) (w : TAwait) (s : State), s.LinkTakes true h → kType h = 11 → kBit4 h = false →
    s.fromPeer h = true → s.awaited h true = some w → s.memOk = true →
    kTcode h = 0 → w.redo = none → s.dead w.lb = false → w.noticed = false →
    ∃ u : State, exec (.tdata h d) s = .next u.settleAll ∧ (u.image (s.home w.lb w.ix)).valid = true ∧
      (u.image (s.home w.lb w.ix)).poison = false ∧
      (u.image (s.home w.lb w.ix)).data =
        (if kBlank h = true then zeroLine else d.take 128 ++ List.replicate (128 - d.length) 0) ∧
      ∀ p k i j (row : Row), w.dest = .req p k i j → s.rowAt w.dest = some row →
        u.tp.await.length + 1 = s.tp.await.length ∧
        u.field oRepair 31 0 =
          (if ({ row with repaired := true, lines := lmod row.lines j fun l => { l with st := .done 0 [] } } : Row).repairOver = true
           then min (s.field oRepair 31 0 + 1) (2 ^ 32 - 1) else s.field oRepair 31 0)) ∧
  (∀ (h : Pkt) (d : List Byte) (w : TAwait) (s : State), s.LinkTakes true h → kType h = 11 → kBit4 h = false →
    s.fromPeer h = true →
    s.awaited h true = some w → kTcode h ≠ 0 → w.redo = none → (∀ k, w.dest ≠ .batch k) →
    ∃ u : State, exec (.tdata h d) s = .next u.settleAll ∧ u.mem = s.mem ∧ u.save = s.save ∧ u.bit oTwinErr 1 = true ∧
      u.field oRepair 63 32 = min (s.field oRepair 63 32 + 1) (2 ^ 32 - 1)) ∧
  (∀ (tag t : Nat) (w : TAwait) (s : State), s.open 11 = true →
    s.tp.await.find? (fun w => w.isMirror && w.sent && w.ttag == tag) = some w → w.retryAt = some t →
    (t ≤ s.turn → s.LinkReady true →
      ∃ u : State, exec (.twinRetryResend tag) s = .next u ∧ u.driven = .ltx true w.h w.data :: s.driven ∧
        u.tp.await = s.tp.await.replace w { w with retryAt := none } ∧ u.regs = s.regs) ∧
    (s.turn < t → exec (.twinRetryResend tag) s = .next s)) ∧
  (∀ (tag : Nat) (s : State),
    match s.tp.await.find? (fun w => w.ttag == tag && w.sent && w.copy.isNone &&
      decide (w.since + max 1 (s.field oTwinCfg 31 16) ≤ s.turn)) with
    | none => exec (.twinTimeout tag) s = .next s
    | some w =>
      if s.twin = 0 ∨ s.twin = 2 then
        ∃ u : State, exec (.twinTimeout tag) s = .next u.settleAll ∧ u = { s with tp := u.tp } ∧ u.tp.await = s.tp.await.erase w
      else ∃ u : State, exec (.twinTimeout tag) s = .next u.settleAll ∧ u.twin = 2 ∧ u.bit oTwinErr 0 = true ∧
        u.tp.resync = none ∧ u.tp.regionCmd = none)

/-- O34. Where CC0 runs: a REGION message of the peer whose definition passes the checks defines the region here and is answered
OK; DELETE invalidates a valid region that nothing holds and is answered OK; CLEAR leaves no line of it valid, outside DEAD
banks, unlocked, and is answered OK; what a check refuses is answered OPERAND, FORMAT or BUSY and changes no register and no
byte. The peer's OK to this instance's own DEFINE or DELETE does the same here and answers the command OK. -/
def Obligations.PeerRegionMessages : Prop :=
  (∀ (h : Pkt) (d : List Byte) (s : State), s.LinkTakes true h → s.LinkReady true → s.iid < 2 ^ 15 → s.coreRuns 0 = true →
    kType h = 10 → kBit4 h = true → s.fromPeer h = true →
    ∃ (t : State) (a : Pkt) (c : Nat), exec (.regionMessage h d) s = .next t ∧ s.SentOne t true a [] ∧
      isTwinAnswer a h s.iid 11 c ∧ t.mem = s.mem ∧
      (let n := fld (payloadWord d 0) 15 8
       let r : RgnDef := { span := payloadWord d 1, attr := payloadWord d 2, aux := payloadWord d 3 }
       if s.spanOk n r = false then c = 5 ∧ t.regs = s.regs
       else if r.formOk s.build.slices = false then c = 6 ∧ t.regs = s.regs
       else if s.rgnBusy n = true ∨ (s.rgnValid n = true ∧ s.rgnLock n = true) ∨ s.regionWaits n r = true then
         c = 11 ∧ t.regs = s.regs
       else c = 0 ∧ t.rgnValid n = true ∧ t.rgnLock n = false ∧ t.rgnBase n = r.base ∧ t.rgnSize n = r.size ∧
         t.rgnFmt n = r.fmt ∧ t.rgnTwin n = r.twin ∧ ∀ o, o ≠ oRgn n 0 → o ≠ oRgn n 8 → o ≠ oRgn n 16 → t.reg o = s.reg o)) ∧
  (∀ (h : Pkt) (d : List Byte) (s : State), s.LinkTakes true h → s.LinkReady true → s.iid < 2 ^ 15 → s.coreRuns 0 = true →
    kType h = 10 → kBit4 h = true → s.fromPeer h = true →
    ∃ (t : State) (a : Pkt) (c : Nat), exec (.deleteMessage h d) s = .next t ∧ s.SentOne t true a [] ∧
      isTwinAnswer a h s.iid 11 c ∧ t.mem = s.mem ∧
      (let n := fld (payloadWord d 0) 15 8
       if s.rgnValid n = false then c = 5 ∧ t.regs = s.regs
       else if s.rgnBusy n = true ∨ s.rgnLock n = true then c = 11 ∧ t.regs = s.regs
       else c = 0 ∧ t.rgnValid n = false ∧ ∀ o, o ≠ oRgn n 0 → t.reg o = s.reg o)) ∧
  (∀ (h : Pkt) (d : List Byte) (s : State), s.LinkTakes true h → s.LinkReady true → s.iid < 2 ^ 15 → s.coreRuns 0 = true →
    kType h = 10 → kBit4 h = true → s.fromPeer h = true → s.memOk = true →
    ∃ (t : State) (a : Pkt) (c : Nat), exec (.clearMessage h d) s = .next t ∧ s.SentOne t true a [] ∧
      isTwinAnswer a h s.iid 11 c ∧
      (let n := fld (payloadWord d 0) 15 8
       if s.rgnValid n = false then c = 5 ∧ t.regs = s.regs ∧ t.mem = s.mem
       else if s.rgnBusy n = true ∨ s.rgnLock n = true then c = 11 ∧ t.regs = s.regs ∧ t.mem = s.mem
       else c = 0 ∧ t.rgnValid n = true ∧ t.rgnLock n = false ∧
         ∀ i, i < s.rgnSize n * 512 → s.dead (s.place n (s.rgnBase n * 512 + i)).1 = false →
           (t.image (t.home (s.place n (s.rgnBase n * 512 + i)).1 (s.place n (s.rgnBase n * 512 + i)).2)).valid = false)) ∧
  (∀ (h : Pkt) (d : List Byte) (n ix : Nat) (s : State), s.LinkTakes true h → s.coreRuns 0 = true → s.fw.hung = 0 →
    kType h = 11 → kBit4 h = true → s.fromPeer h = true → ix < 256 → kTcode h = 0 →
    (s.tp.regionCmd = some (n, ix, msgDelete) →
      ∃ t : State, exec (.deleteMessage h d) s = .next t ∧ t.rgnValid ix = false ∧ t.tp.regionCmd = none ∧
        s.Replied t n 0 0x16 [] ∧ t.mem = s.mem) ∧
    (s.tp.regionCmd = some (n, ix, msgRegion) → s.spanOk ix (s.cmdDef n) = true → s.rgnBusy ix = false →
      ∃ t : State, exec (.regionMessage h d) s = .next t ∧ t.rgnValid ix = true ∧ t.rgnLock ix = false ∧
        t.rgnBase ix = (s.cmdDef n).base ∧ t.rgnSize ix = (s.cmdDef n).size ∧ t.rgnFmt ix = (s.cmdDef n).fmt ∧
        t.rgnTwin ix = (s.cmdDef n).twin ∧ t.tp.regionCmd = none ∧ s.Replied t n 0 0x16 [] ∧ t.mem = s.mem))

/-- O35. Where CC0 runs: a BIND message of the instance a waiting TWIN_BIND names, with a matching identity and asking for the
bind, binds the pair: TWIN.STAT reads UP and that peer, and the command is answered OK; with another identity it is answered
TWIN. UNBIND of the bound peer dissolves the pair. A DIRTY request of the peer begins the resync here and is answered with the
chunk of the dirty map; the peer's chunk is marked here and the next is asked for, after the last one the dirty units are
listed. DOWN of the peer takes a pair that is UP or in RESYNC DOWN. -/
def Obligations.PeerBindingMessages : Prop :=
  (∀ (h : Pkt) (d : List Byte) (n t0 : Nat) (s : State), s.LinkTakes true h → s.coreRuns 0 = true → s.fw.hung = 0 →
    kType h = 10 → kBit4 h = true →
    s.tp.binding = some (n, kSiid h, t0) → s.twin = 0 → bitAt (d.getD 32 0).toNat 0 = true →
    ∃ t : State, exec (.bindMessage h d) s = .next t ∧ t.tp.binding = none ∧
      t.mem = s.mem ∧ t.ports = s.ports ∧
      (if s.identityOk d (kSiid h) = true then t.twin = 1 ∧ t.peer = kSiid h ∧ s.Replied t n 0 0x14 []
       else t.twin = 0 ∧ s.Replied t n 12 0x13 [])) ∧
  (∀ (h : Pkt) (d : List Byte) (s : State), s.LinkTakes true h → s.LinkReady true → s.iid < 2 ^ 15 → s.coreRuns 0 = true →
    kType h = 10 → kBit4 h = true → s.fromPeer h = true →
    ∃ (t : State) (a : Pkt), exec (.unbindMessage h d) s = .next t ∧ s.SentOne t true a [] ∧ isTwinAnswer a h s.iid 11 0 ∧
      t.twin = 0 ∧ t.tp.await = [] ∧ t.tp.dirty = [] ∧ t.tp.resync = none ∧ (∀ o, o ≠ oTwinStat → t.reg o = s.reg o) ∧
      t.mem = s.mem ∧ t.ports = s.ports) ∧
  (∀ (h : Pkt) (d : List Byte) (s : State), s.LinkTakes true h → s.LinkReady true → s.iid < 2 ^ 15 → s.coreRuns 0 = true →
    kType h = 10 → kBit4 h = true → s.fromPeer h = true →
    ∃ (t : State) (a : Pkt), exec (.dirtyMessage h d) s = .next t ∧ s.SentOne t true a (s.dirtyChunk (kLa h - 1)) ∧
      isTwinAnswer a h s.iid 11 0 ∧ t.twin = 3 ∧ t.tp.dirty = s.tp.dirty ∧ (∀ o, o ≠ oTwinStat → t.reg o = s.reg o)) ∧
  (∀ (h : Pkt) (d : List Byte) (q : Resync) (s : State), s.LinkTakes true h → s.LinkReady true → s.coreRuns 0 = true →
    kType h = 11 → kBit4 h = true → s.fromPeer h = true → s.tp.resync = some q → q.chunks ≠ [] →
    ∃ t : State, exec (.dirtyMessage h d) s = .next t ∧ t.regs = s.regs ∧ t.mem = s.mem ∧
      (∀ i, i < 1024 → bitAt (d.getD (i / 8) 0).toNat (i % 8) = true →
        tfind t.tp.dirty (1024 * (kLa h - 1) + i) = some true) ∧
      (match q.chunks.filter (fun x => x != kLa h - 1) with
       | [] => s.SentNone t true ∧ t.tp.resync =
           some { q with chunks := [], units := (t.tp.dirty.filter fun e => e.2).map fun e => e.1, line := 0 }
       | e :: rest => t.tp.resync = some { q with chunks := e :: rest } ∧
           (e + 1 < 2 ^ 23 → ∃ a : Pkt, s.SentOne t true a (bytesLE 8 msgDirty) ∧ kType a = 10 ∧ kBit4 a = true ∧ kLa a = e + 1))) ∧
  (∀ (h : Pkt) (d : List Byte) (s : State), s.LinkTakes true h → s.coreRuns 0 = true → kType h = 10 → kBit4 h = true →
    s.fromPeer h = true →
    ∃ u : State, exec (.downMessage h d) s = .next (u.settleAll.repayLink true) ∧ u.twin = 2 ∧
      (s.twin ≠ 2 → u.bit oTwinErr 0 = true))

/-- O36. After the last cycle of a turn, in PS0 or PS1, TURN_BOUNDARY begins the next turn at cycle 0 with the FTIME sampled: the
ranks due come into force, each group whose swap is armed copies its shadow table into its active one and every other keeps
its active one, every group's grant count restarts, and every port's use count restarts. At any other time it changes nothing. -/
def Obligations.TurnBoundaryBeginsATurn : Prop :=
  (∀ (f : Word) (a : Sensors) (x : Nat) (s : State), s.cyc ≠ 4095 ∨ 1 < s.ps ∨ s.pins.poreset = true →
    exec (.turnBoundary f a x) s = .next s) ∧
  (∀ (f : Word) (a : Sensors) (x : Nat) (s : State), s.build.ok = true → s.cyc = 4095 → s.ps ≤ 1 → s.pins.poreset = false →
    ∃ t : State, exec (.turnBoundary f a x) s = .next t ∧ t.turn = s.turn + 1 ∧ t.cyc = 0 ∧ t.ftime = f ∧
      t.rankNow = s.endCycle.rank ∧ t.rank = s.endCycle.rankLate ∧ t.ctxMoved = [] ∧
      (∀ g, g < s.nGroups → (t.group g).grantCount = 0 ∧ (t.group g).grants = 0) ∧
      (∀ g w, g < s.nGroups → w < 4 → t.reg (oSlotAct g w) =
        (if s.endCycle.bit oSwap g = true ∧ (s.endCycle.group g).swapArmed = true then s.endCycle.reg (oSlotShd g w)
          else s.endCycle.reg (oSlotAct g w)) ∧ t.reg (oSlotShd g w) = s.endCycle.reg (oSlotShd g w)) ∧
      ∀ p, p < 13 → (t.port p).turnUse = 0)

/-- O37. Where CC1 runs, in PS0 or PS1: after four calm turns THROTTLE_UNDO takes the newest action off the stack, a gating level
one down, and restarts the calm count. After 16 turns of low activity IDLE_LOWERING lowers an unlocked domain's target one
point, not below FLOOR, while no PLL of it parks; after 16 turns in which a boost is allowed BOOST takes a lowering by one
point back, or raises the target one point, not above CEIL nor the highest point available. Each then leaves every domain's
target at what the power manager's rules make of it; without their conditions they change nothing. -/
def Obligations.PowerTimers : Prop :=
  (∀ s : State, s.ps ≤ 1 → s.coreRuns 1 = true → 4 ≤ s.pw.calm → s.pw.tripped = false → s.build.ok = true →
    ∀ a rest, s.pw.stack = a :: rest →
    ∃ t : State, exec .throttleUndo s = .next t ∧ t.pw.stack = rest ∧ t.pw.calm = 0 ∧
      (∀ c, a = .gate c → c < 6 → t.gateOf c = s.gateOf c - 1) ∧ (∀ d, d ≤ s.build.slices → t.tgtOf d = t.goal d) ∧
      (∀ o, o ≠ oGate → o ≠ oOps → t.reg o = s.reg o) ∧ t.mem = s.mem) ∧
  (∀ s : State, s.pw.calm < 4 ∨ s.pw.stack = [] ∨ s.pw.tripped = true ∨ 1 < s.ps ∨ s.coreRuns 1 = false →
    exec .throttleUndo s = .next s) ∧
  (∀ (d : Nat) (s : State), s.build.ok = true → d ≤ s.build.slices → s.locked d = false → s.ps ≤ 1 → s.coreRuns 1 = true →
    16 ≤ (s.dom d).lowTurns → (s.dom d).pllWait = 0 → s.phaseField d 1 < s.phaseTarget d →
    ∃ t : State, exec (.idleLowering d) s = .next t ∧ t.phaseTarget d + 1 = s.phaseTarget d ∧
      s.phaseField d 1 ≤ t.phaseTarget d ∧
      (t.dom d).lowTurns = 0 ∧ (∀ e, e ≤ s.build.slices → t.tgtOf e = t.goal e) ∧
      (∀ o, o ≠ oOps → o ≠ oNote → t.reg o = s.reg o) ∧ t.mem = s.mem) ∧
  (∀ (d : Nat) (s : State), s.build.slices < d ∨ s.locked d = true ∨ 1 < s.ps ∨ s.coreRuns 1 = false ∨ (s.dom d).lowTurns < 16 ∨
    (s.dom d).pllWait ≠ 0 ∨ s.phaseTarget d ≤ s.phaseField d 1 → exec (.idleLowering d) s = .next s) ∧
  (∀ (d : Nat) (s : State), s.build.ok = true → d ≤ s.build.slices → s.locked d = false → s.ps ≤ 1 → s.coreRuns 1 = true →
    16 ≤ (s.dom d).boostTurns → s.phaseTarget d < min (s.phaseField d 2) (s.opMax d) →
    ∃ t : State, exec (.boost d) s = .next t ∧ (t.dom d).boostTurns = 0 ∧ (t.dom d).lowered = (s.dom d).lowered - 1 ∧
      ((s.dom d).lowered = 0 → t.phaseTarget d = s.phaseTarget d + 1) ∧
      t.phaseTarget d ≤ min (s.phaseField d 2) (s.opMax d) ∧
      (∀ e, e ≤ s.build.slices → t.tgtOf e = t.goal e) ∧
      (∀ o, o ≠ oOps → o ≠ oNote → t.reg o = s.reg o) ∧ t.mem = s.mem) ∧
  (∀ (d : Nat) (s : State), s.build.slices < d ∨ s.locked d = true ∨ 1 < s.ps ∨ s.coreRuns 1 = false ∨
    (s.dom d).boostTurns < 16 ∨ min (s.phaseField d 2) (s.opMax d) ≤ s.phaseTarget d → exec (.boost d) s = .next s)

/-- O38. With CC1 serving and the turn quiet, IDLE_ENTRY begins the entry to PS2 once the idle count has reached T2, else to PS1
from PS0 once it has reached T1, with PWR.ARM's retain mask; otherwise it changes nothing. WAKE_EVENT abandons an entry in E1
to E4, counted, its command answered ABORT; it is latched in E5 and E6; in PS1, and in PS2 with the supply confirmed at the
running point's code, it returns the block to PS0 with PWR.NOTE.WAKE set, in PS2, with VA_OK high, with every slice powered. A
register read of an exempt offset wakes nothing. -/
def Obligations.PowerStatesEnteredAndLeft : Prop :=
  (∀ s : State, s.fwReady = true → s.pw.entry = none → s.quietNow = true → s.field oArm 31 16 ≠ 0 →
    s.field oArm 31 16 ≤ s.field oIdle 31 0 → s.ps ≤ 1 →
    ∃ t : State, exec .idleEntry s = .next t ∧ t.ps = 0 ∧ t.field oPwrStat 61 58 = (if s.ps = 1 then 12 else 9) ∧
      t.pw.entry = some { target := 2, step := if s.ps = 1 then 4 else 1, cmd := none, retain := s.field oArm 39 32 } ∧
      (∀ o, o ≠ oPwrStat → t.reg o = s.reg o)) ∧
  (∀ s : State, s.fwReady = true → s.pw.entry = none → s.quietNow = true →
    s.field oArm 31 16 = 0 ∨ s.field oIdle 31 0 < s.field oArm 31 16 → s.field oArm 15 0 ≠ 0 →
    s.field oArm 15 0 ≤ s.field oIdle 31 0 → s.ps = 0 →
    ∃ t : State, exec .idleEntry s = .next t ∧ t.ps = 0 ∧ t.field oPwrStat 61 58 = 9 ∧
      t.pw.entry = some { target := 1, step := 1, cmd := none, retain := s.field oArm 39 32 } ∧
      (∀ o, o ≠ oPwrStat → t.reg o = s.reg o)) ∧
  (∀ s : State, s.quietNow = false ∨ s.fwReady = false ∨ s.pw.entry ≠ none ∨ 1 < s.ps ∨
    ((s.field oArm 31 16 = 0 ∨ s.field oIdle 31 0 < s.field oArm 31 16) ∧
      (s.field oArm 15 0 = 0 ∨ s.field oIdle 31 0 < s.field oArm 15 0 ∨ s.ps ≠ 0)) → exec .idleEntry s = .next s) ∧
  (∀ (c : WakeCause) (s : State), wakes c = false ∨ s.pins.poreset = true → exec (.wakeEvent c) s = .next s) ∧
  (∀ off, off < 0x2000 ∨ (0x16000 ≤ off ∧ off < 0x17000) ∨ (0x19000 ≤ off ∧ off < 0x1B000) → wakes (.cpReg false off) = false) ∧
  (∀ (c : WakeCause) (e : Entry) (s : State), wakes c = true → s.pins.poreset = false → s.pw.entry = some e → s.fw.hung = 0 →
    1 ≤ e.step → e.step ≤ 4 →
    ∃ t : State, exec (.wakeEvent c) s = .next t ∧ t.pw.entry = none ∧ t.ps = s.ps ∧ t.field oPwrStat 61 58 = 0 ∧
      t.field oAborts 31 0 = min (s.field oAborts 31 0 + 1) (2 ^ 32 - 1) ∧
      (∀ n, e.cmd = some n → s.Replied t n 13 0x14 []) ∧ t.mem = s.mem) ∧
  (∀ (c : WakeCause) (e : Entry) (s : State), wakes c = true → s.pins.poreset = false → s.pw.entry = some e → 5 ≤ e.step →
    e.step ≤ 6 →
    exec (.wakeEvent c) s = .next { s with pw := { s.pw with wakeLatched := true } }) ∧
  (∀ (c : WakeCause) (s : State), wakes c = true → s.pins.poreset = false → s.pw.entry = none → s.ps = 1 →
    ∃ t : State, exec (.wakeEvent c) s = .next t ∧ t.ps = 0 ∧ t.bit oNote 9 = true ∧ t.field oIdle 31 0 = 0 ∧ t.mem = s.mem) ∧
  (∀ (c : WakeCause) (s : State), wakes c = true → s.pins.poreset = false → s.pw.entry = none → s.ps = 2 →
    s.vidAt (s.runCode 0) = true → s.build.ok = true → s.pins.vaOk = true →
    ∃ t : State, exec (.wakeEvent c) s = .next t ∧ t.ps = 0 ∧ t.bit oNote 9 = true ∧
      ∀ sl, sl < s.build.slices → (t.slice sl).powered = true)

/-- O39. A port whose stall count has reached the window is reported once: its bit in HANG.PORTS, the HANG event with kind, port
and window where it carries requests, and the first capture in HANG_CTX; with AF_HANG it is fenced with reason 2. A context
whose stall count has reached it sets its slot's bit and sends each port with an operation of it a HANG event. CC_HANG of
cores whose heartbeats stood still 256 turns stops firmware, and, the first since a reset or a clear, names them in GLB.ERR
and writes a fault record of kind 7 in the keep domain, the record before it kept; of others it changes nothing. -/
def Obligations.HangsReported : Prop :=
  (∀ (p : Nat) (s : State), s.hasPort p = true → s.pins.poreset = false → (s.port p).fence = .free → 0 < s.field oHangCfg 15 0 →
    s.field (oProg p) 15 0 = s.field oHangCfg 15 0 → (s.port p).hangRep = false →
    ∃ u : State, exec (.portHang p) s = .next
        (if p ≠ 12 ∧ s.bit (oHangPort p) 0 = true then (u.fencePort p 2).settleAll else u) ∧
      u.bit oHangPorts p = true ∧ (u.port p).hangRep = true ∧ (u.port p).reqs = (s.port p).reqs ∧
      (isPartner p = true → ∃ e, (u.port p).evtq = (s.port p).evtq ++ [e] ∧ e.code = 3 ∧
        e.info = BitVec.ofNat 64 (p * 16 + s.field oHangCfg 15 0 * 2 ^ 16)) ∧
      (s.bit oHangCtx 63 = true → u.reg oHangCtx = s.reg oHangCtx) ∧
      (s.bit oHangCtx 63 = false → u.bit oHangCtx 63 = true ∧ u.bit oHangCtx 62 = false ∧ u.field oHangCtx 61 58 = p ∧
        u.field oHangCtx 31 0 = s.turn % 2 ^ 32) ∧ u.mem = s.mem ∧ ∀ q, q ≠ p → u.port q = s.port q) ∧
  (∀ (p : Nat) (s : State), s.hasPort p = false ∨ s.pins.poreset = true ∨ (s.port p).fence ≠ .free ∨
    s.field (oProg p) 15 0 ≠ s.field oHangCfg 15 0 ∨ (s.port p).hangRep = true ∨ s.field oHangCfg 15 0 = 0 →
    exec (.portHang p) s = .next s) ∧
  (∀ (i : Nat) (s : State), i < 64 → s.pins.poreset = false → 0 < s.field oHangCfg 15 0 → s.bit oHangCfg 16 = true →
    tget 0 s.ctxStall i = s.field oHangCfg 15 0 →
    ∃ t : State, exec (.contextHang i) s = .next t ∧ t.bit oHangSlots i = true ∧
      tget 0 t.ctxStall i = s.field oHangCfg 15 0 + 1 ∧
      (∀ p x, isPartner p = true → p < 13 → s.ctxOldest (s.tab (oCtxt i 0) 57 48) p = some x →
        ∃ e, (t.port p).evtq = (s.port p).evtq ++ [e] ∧ e.code = 3 ∧ e.ctx = s.tab (oCtxt i 0) 57 48 ∧ e.tag = x.1) ∧
      t.counters = s.counters ∧ t.waiters = s.waiters ∧ t.mem = s.mem) ∧
  (∀ (i : Nat) (s : State), 64 ≤ i ∨ s.pins.poreset = true ∨ s.field oHangCfg 15 0 = 0 ∨
    tget 0 s.ctxStall i ≠ s.field oHangCfg 15 0 ∨ s.bit oHangCfg 16 = false → exec (.contextHang i) s = .next s) ∧
  (∀ (m : Nat) (s : State), 0 < m → m < 16 → s.pins.poreset = false → s.loaded = true → m &&& s.fw.hung = 0 →
    (∀ k, k < 4 → bitAt m k = true → s.hangFound k = true) →
    ∃ t : State, exec (.ccHang m) s = .next t ∧ t.fw.hung = (s.fw.hung ||| m) ∧ t.fwRuns = false ∧
      t.mem = s.mem ∧ t.ports = s.ports ∧
      (s.bit oGlbErr 8 = true → t.regs = s.regs) ∧
      (s.bit oGlbErr 8 = false → t.field oGlbErr 19 16 = m ∧ t.bit oGlbErr 8 = true ∧
        t.field (oKeep 28) 63 58 = 39 ∧ t.reg (oKeep 30) = BitVec.ofNat 64 m ∧ t.reg (oKeep 31) = s.reg (oKeep 28) ∧
        ∀ o, o ≠ oGlbErr → o ≠ oKeep 28 → o ≠ oKeep 29 → o ≠ oKeep 30 → o ≠ oKeep 31 → t.reg o = s.reg o)) ∧
  (∀ (m : Nat) (s : State), m % 16 = 0 ∨ s.pins.poreset = true ∨ s.loaded = false ∨
    (∃ k, k < 4 ∧ bitAt m k = true ∧ s.hangFound k = false) → exec (.ccHang m) s = .next s)

/-- O40. BANK_GRANT runs at most one grant cycle of a group in a grant cycle of its slice; otherwise it changes nothing. Where one
access of a port waits, that nothing bars, it is served: a good or blank line is delivered to its request with memory
unchanged; a line with an uncorrectable inner error outside a twin region is poisoned, INT.ERR.UE_IN set, and the read's line
ends with ECC; a whole-line write outside a twin region leaves the line with its bytes, valid and unpoisoned. The grant is
counted and nothing stays parked. ACCUMULATE_GATE_ADMIT admits nothing while an accumulate it admitted is still queued, while
the distance to the last accumulate lasts, in a gated or frozen cycle, or outside a grant cycle. Otherwise a lone accumulate
line waiting for the group, with ramp and link allowance, enters the group with the age of this grant cycle and nothing else
changes but its port's use counts. -/
def Obligations.GatesAndGrants : Prop :=
  (∀ (g : Nat) (tr : List Nat) (s : State), s.mayGrant g = false → exec (.bankGrant g tr) s = .next s) ∧
  (∀ (g : Nat) (tr : List Nat) (s : State), s.mayGrant g = true →
    ∃ u : State, exec (.bankGrant g tr) s = .next u.settleAll ∧ (u.group g).granted = true) ∧
  (∀ (g p k i j : Nat) (a : Access) (r : Req) (s : State), s.mayGrant g = true → s.memOk = true → s.engineOffer g = none →
    (s.group g).waitq = [] → (s.group g).arriving = [] → (s.group g).busy = [] → (s.group g).parked = [a] → a.phys = none →
    a.agent ≤ 12 → groupOf a.lb = g → a.dest = .req p k i j → (s.port p).req k = some r → (∀ w ∈ r.rows, w.repaired = false) →
    s.dead a.lb = false → a.op.merges = false → s.barred a = false →
    ∃ u : State, exec (.bankGrant g []) s = .next u.settleAll ∧ (u.group g).parked = [] ∧ (u.group g).busy = [] ∧
      (u.group g).grantCount = (s.group g).grantCount + 1 ∧ (u.group g).grants = (s.group g).grants + 1 ∧
      (u.group g).granted = true ∧ (a.op = .read → ∀ q, q ≠ p → u.port q = s.port q) ∧
      (∀ d, a.op = .read → judge (s.image (s.home a.lb a.ix)) a.la = .good d [] → u.mem = s.mem ∧ u.save = s.save ∧
        (u.port p).req k = some (r.modLine i j fun l => { l with st := .done 0 d })) ∧
      (a.op = .read → judge (s.image (s.home a.lb a.ix)) a.la = .blank → u.mem = s.mem ∧ u.save = s.save ∧
        (u.port p).req k = some (r.modLine i j fun l => { l with st := .done 0 zeroLine })) ∧
      (∀ w y, a.op = .read → judge (s.image (s.home a.lb a.ix)) a.la = .ueIn w y → s.rgnTwin a.rgn = false →
        (u.image (s.home a.lb a.ix)).poison = true ∧ u.bit oIntErr 1 = true ∧
        (u.port p).req k = some (r.modLine i j fun l => { l with st := .done 3 [] })) ∧
      (∀ cells, a.op = .write cells false false → 128 ≤ cells.length → s.rgnTwin a.rgn = false → isRead (hOpc r.h) = false →
        (u.image (s.home a.lb a.ix)).data = (List.range 128).map (fun e => (tfind cells e).getD 0) ∧
        (u.image (s.home a.lb a.ix)).valid = true ∧ (u.image (s.home a.lb a.ix)).poison = false ∧
        (u.port p).req k = some (r.modLine i j fun l => { l with st := .done 0 [] }))) ∧
  (∀ (g : Nat) (s : State), s.mayGrant g = false ∨ (s.group g).gateWait ≠ 0 ∨ s.frozen g = true ∨
    ((s.group g).parked ++ (s.group g).arriving).any (fun a => a.op.isAdd) = true ∨
    8 - s.field oGate 11 8 ≤ (s.group g).total % 8 → exec (.accumulateGateAdmit g) s = .next s) ∧
  (∀ (g : Nat) (a : Access) (s : State), s.mayGrant g = true → (s.group g).waitq = [a] → (s.group g).arriving = [] →
    (s.group g).parked = [] → (s.group g).gateWait = 0 → s.frozen g = false → (s.group g).total % 8 < 8 - s.field oGate 11 8 →
    a.op.isAdd = true → s.rampRoom a.agent = true → s.linkTurn a.agent = true →
    ∃ t : State, exec (.accumulateGateAdmit g) s = .next t ∧
      t.group g = { s.group g with waitq := [], arriving := [{ a with age := (s.group g).total }] } ∧
      (∀ h, h ≠ g → t.group h = s.group h) ∧ { t with groups := s.groups, ports := s.ports } = s ∧
      ∀ p, t.port p = if p = a.agent ∧ a.agent ≤ 12 then
        { s.port p with frameUse := (s.port p).frameUse + 1, turnUse := (s.port p).turnUse + 1 } else s.port p)

/-- O41. SHAVING_START of a free engine starts the next shaving of a test run, or, its period over, the walk's next one: bank and
first line as BT.SL's index gives them, or skipped and counted where the bank is DEAD, its group migrates or has no BT slot.
SHAVING_STEP begins the accesses of the next step at the start of a turn, one step a turn. An access of the engine, parked
alone, is served in a BT slot: in steps 1 and 2 its line is copied to the save buffer, the array left as it is, and
redirected; in steps 3, 4, 7 and 8 the line holds the pattern or its complement; in steps 15 and 16 it is restored, and after
the last one without calibration the walk's shaving ends and its index moves on. -/
def Obligations.ShavingsRun : Prop :=
  (∀ (sl : Nat) (s : State), s.engineFree sl = false → exec (.shavingStart sl) s = .next s) ∧
  (∀ (sl : Nat) (q : TestRun) (s : State), s.engineFree sl = true → (s.slice sl).test = some q →
    ∃ (t : State) (h : Shaving), exec (.shavingStart sl) s = .next t ∧ (t.slice sl).shaving = some h ∧ h.lb = q.lb ∧
      h.pb = s.physOf q.lb ∧ h.ix0 = 128 * q.idx ∧ h.step = 1 ∧ h.left = 0 ∧ h.lo = 0 ∧ h.hi = 0 ∧ h.cal = q.cal ∧
      h.ofTest = true ∧ t.mem = s.mem ∧ t.save = s.save) ∧
  (∀ (sl : Nat) (s : State), s.engineFree sl = true → (s.slice sl).test = none → s.periodOver sl = false →
    exec (.shavingStart sl) s = .next s) ∧
  (∀ (sl lb : Nat) (s : State), s.build.ok = true → s.engineFree sl = true → (s.slice sl).test = none →
    s.periodOver sl = true → lb = 64 * sl + s.field (oBtSl sl) 58 46 % 64 →
    if s.dead lb = true ∨ s.btSlot (groupOf lb) = false ∨ (∃ m, (s.slice sl).migr = some m ∧ groupOf m.lb = groupOf lb) then
      ∃ t : State, exec (.shavingStart sl) s = .next t ∧ (t.slice sl).shaving = none ∧
        t.field (oBtSl sl) 58 46 = (s.field (oBtSl sl) 58 46 + 1) % 8192 ∧
        t.field (oBtSl sl) 45 32 = min (s.field (oBtSl sl) 45 32 + 1) (2 ^ 14 - 1)
    else ∃ (t : State) (h : Shaving), exec (.shavingStart sl) s = .next t ∧ (t.slice sl).shaving = some h ∧ h.lb = lb ∧
      h.pb = s.physOf lb ∧ h.ix0 = 128 * (s.field (oBtSl sl) 58 46 / 64) ∧ h.step = 1 ∧ h.left = 0 ∧ h.ofTest = false ∧
      t.bit (oBtSl sl) 59 = true ∧ (t.slice sl).lastStart = some s.turn) ∧
  (∀ (sl : Nat) (b : ReadBack) (s : State), (s.slice sl).shaving = none ∨ s.awake = false ∨ s.pins.poreset = true ∨
    (s.slice sl).powered = false ∨ s.cyc ≠ 0 ∨ (s.slice sl).stepAt = some s.turn ∨
    (∃ h, (s.slice sl).shaving = some h ∧ h.left ≠ 0) → exec (.shavingStep sl b) s = .next s) ∧
  (∀ (sl : Nat) (b : ReadBack) (h : Shaving) (s : State), s.awake = true → s.pins.poreset = false →
    (s.slice sl).powered = true → s.cyc = 0 → (s.slice sl).shaving = some h → h.left = 0 → (s.slice sl).stepAt ≠ some s.turn →
    ∃ t : State, exec (.shavingStep sl b) s = .next t ∧
      t.slice sl = { s.slice sl with shaving := some { h with left := 64, seen := b }, stepAt := some s.turn } ∧
      (∀ k, k ≠ sl → t.slice k = s.slice k) ∧ { t with slices := s.slices } = s) ∧
  (∀ (g : Nat) (h : Shaving) (a : Access) (s : State), s.build.ok = true → s.mayGrant g = true → s.memOk = true →
    (s.group g).waitq = [] → (s.group g).arriving = [] → (s.group g).busy = [] → (s.group g).parked = [a] →
    (s.slice (g / 4)).shaving = some h → groupOf h.lb = g → 0 < h.left → h.left ≤ 64 → h.ix0 + 128 ≤ 16384 →
    a = s.shavingAccess (g / 4) h a.age → s.slotOwner g ((s.group g).grantCount % 64) false = 14 →
    ∃ u : State, exec (.bankGrant g []) s = .next u.settleAll ∧ (u.group g).parked = [] ∧
      (h.step = 1 ∨ h.step = 2 → u.mem = s.mem ∧
        (u.image ⟨true, arrBase (g / 4) ((h.ix0 + h.line) % 128), h.pb, h.ix0 + h.line⟩).valid =
          (s.image (arrHome h.pb (h.ix0 + h.line))).valid ∧
        ∃ h', (u.slice (g / 4)).shaving = some h' ∧ h'.hi = h.line + 1 ∧
          (if 1 < h.left then h'.step = h.step ∧ h'.left = h.left - 1 else h'.step = h.step + 1 ∧ h'.left = 0)) ∧
      (h.step = 3 ∨ h.step = 4 ∨ h.step = 7 ∨ h.step = 8 →
        (u.image (arrHome h.pb (h.ix0 + h.line))).data = List.replicate 128 (patternByte h.line (decide (7 ≤ h.step))) ∧
        u.save = s.save) ∧
      (h.step = 15 ∨ h.step = 16 →
        (u.image (arrHome h.pb (h.ix0 + h.line))).data =
          (s.image ⟨true, arrBase (g / 4) ((h.ix0 + h.line) % 128), h.pb, h.ix0 + h.line⟩).data ∧ u.save = s.save) ∧
      (h.step = 16 → h.left = 1 → h.cal = false → h.ofTest = false →
        (u.slice (g / 4)).shaving = none ∧ u.bit (oBtSl (g / 4)) 59 = false ∧
        u.field (oBtSl (g / 4)) 58 46 = (s.field (oBtSl (g / 4)) 58 46 + 1) % 8192))

/-- O42. Where CC2 runs and has a cause to retire a bank, RETIREMENT_START begins its migration to the slice's lower free spare,
the bank's group having a BT slot: REMAP reads MIGRATING to that spare, the spare MIGRATING for that bank. Without a spare a
hard fault makes the bank DEAD, noted in INT.ERR.DEAD; a word count only notes NO_SPARE. Once every line is copied
MIGRATION_SWITCH, at the start of a turn, remaps the bank to the spare, frees the migration and notes the retirement; no byte
of memory changes. Otherwise neither changes anything. -/
def Obligations.BanksRetired : Prop :=
  (∀ (lb : Nat) (c : RetireCause) (s : State), s.retireDue lb c = false ∨ s.coreRuns 2 = false ∨ s.dead lb = true ∨
    s.nBanks ≤ lb ∨ (s.slice (sliceOf lb)).migr ≠ none ∨ (s.slice (sliceOf lb)).hold = true ∨
    (s.freeSpare (sliceOf lb) ≠ none ∧ s.btSlot (groupOf lb) = false) → exec (.retirementStart lb c) s = .next s) ∧
  (∀ (lb pos : Nat) (c : RetireCause) (s : State), s.build.ok = true → s.coreRuns 2 = true → lb < s.nBanks → s.dead lb = false →
    (s.slice (sliceOf lb)).migr = none → (s.slice (sliceOf lb)).hold = false → s.retireDue lb c = true →
    s.freeSpare (sliceOf lb) = some pos → s.btSlot (groupOf lb) = true →
    ∃ (t : State) (m : Migr), exec (.retirementStart lb c) s = .next t ∧ (t.slice (sliceOf lb)).migr = some m ∧ m.lb = lb ∧
      m.spare = pos ∧ m.old = s.field (oRemap lb) 6 0 ∧ m.next = 0 ∧ m.suspended = false ∧ t.migrating lb = true ∧
      t.field (oRemap lb) 14 8 = pos ∧ t.field (oRemap lb) 6 0 = s.field (oRemap lb) 6 0 ∧
      t.field (oSpare (sliceOf lb)) (spareHi pos) (spareHi pos - 1) = 2 ∧
      t.field (oSpare (sliceOf lb)) (if pos = 64 then 8 else 24) (if pos = 64 then 0 else 16) = lb ∧
      (t.slice (sliceOf lb)).wantRetire.contains lb = false) ∧
  (∀ (lb : Nat) (c : RetireCause) (s : State), s.build.ok = true → s.coreRuns 2 = true → lb < s.nBanks → s.dead lb = false →
    (s.slice (sliceOf lb)).migr = none → (s.slice (sliceOf lb)).hold = false → s.retireDue lb c = true →
    s.freeSpare (sliceOf lb) = none →
    ∃ t : State, exec (.retirementStart lb c) s = .next t ∧ t.mem = s.mem ∧
      (c = .hardFault → t.dead lb = true ∧ t.bit oIntErr 9 = true) ∧
      (c = .words → t.field (oRemap lb) 17 16 = s.field (oRemap lb) 17 16 ∧ t.bit oIntErr 10 = true)) ∧
  (∀ (sl : Nat) (m : Migr) (s : State), s.build.ok = true → sl < s.build.slices → s.coreRuns 2 = true →
    (s.slice sl).migr = some m → m.next = 16384 → m.suspended = false → s.cyc = 0 → m.lb < s.nBanks →
    m.spare = 64 ∨ m.spare = 65 → m.old < 66 → m.old ≠ m.spare →
    ∃ t : State, exec (.migrationSwitch sl) s = .next t ∧ (t.slice sl).migr = none ∧ t.field (oRemap m.lb) 6 0 = m.spare ∧
      t.field (oRemap m.lb) 17 16 = 0 ∧ t.field (oSpare sl) (spareHi m.spare) (spareHi m.spare - 1) = 1 ∧
      (if m.old < 64 then t.bit (oRetired sl) m.old = true
       else t.field (oSpare sl) (spareHi m.old) (spareHi m.old - 1) = 3) ∧ t.bit oIntErr 7 = true ∧ t.mem = s.mem ∧
         t.save = s.save) ∧
  (∀ (sl : Nat) (s : State), s.coreRuns 2 = false ∨ s.cyc ≠ 0 ∨
    (∀ m, (s.slice sl).migr = some m → m.next ≠ 16384 ∨ m.suspended = true) → exec (.migrationSwitch sl) s = .next s)

/-- O43. A slice fault sets its bit of RST.FAULT, holds the slice, freezes its four groups and leaves no access of them in flight.
A waiting recovery starts, first in the queue, once fewer than two run. A recovery that completes with its groups drained and
no further fault releases the slice: freeze and hold end, recalibration has set the trims found, a migration left goes on from
its start, RST.STAT counts it; one that met a fault starts once more with recalibration, and one that met another then ends
with the slice left held. A RESET_SLICE command is answered OK at the end. -/
def Obligations.SlicesFailAndRecover : Prop :=
  (∀ (sl : Nat) (k : SliceFaultKind) (s : State), s.build.ok = true → sl < s.build.slices → s.pins.poreset = false →
    ∃ u : State, exec (.sliceFault sl k) s = .next u.settleAll ∧ u.bit oRstFault (faultBit sl k) = true ∧
      (u.slice sl).hold = true ∧ u.field oFrzFw (4 * sl + 3) (4 * sl) = 15 ∧
      ∀ g, g / 4 = sl → (u.group g).parked = [] ∧ (u.group g).arriving = [] ∧ (u.group g).busy = []) ∧
  (∀ (sl : Nat) (k : SliceFaultKind) (s : State), s.build.slices ≤ sl ∨ s.pins.poreset = true →
    exec (.sliceFault sl k) s = .next s) ∧
  (∀ (sl : Nat) (rest : List Nat) (r : Recov) (s : State), s.fw.recovQ = sl :: rest → s.fwRuns = true → s.recoveries < 2 →
    sl < 8 →
    (s.slice sl).recov = some r →
    ∃ t : State, exec .recoveryStart s = .next t ∧ t.fw.recovQ = rest ∧ (t.slice sl).recov = some { r with running := true } ∧
      t.bit oRstStat sl = true ∧ t.bit oRstStat (8 + sl) = false ∧ t.mem = s.mem) ∧
  (∀ s : State, s.fw.recovQ = [] ∨ s.fwRuns = false ∨ 2 ≤ s.recoveries → exec .recoveryStart s = .next s) ∧
  (∀ (sl : Nat) (h : Recalibration) (r : Recov) (s : State), s.build.ok = true → sl < s.build.slices →
    s.fwRuns = true → (s.slice sl).recov = some r → r.running = true →
    (s.slice sl).powered = true → (∀ g, g / 4 = sl → s.drained g = true) →
    ∃ u : State, exec (.recoveryComplete sl h) s = .next u.settleAll ∧ u.mem = s.mem ∧
      (r.recal = true → ∀ i, i < 66 → u.field (oTrim ((66 * sl + i) / 16)) (4 * ((66 * sl + i) % 16) + 3)
        (4 * ((66 * sl + i) % 16)) = min (h.trims.getD i 8) 15) ∧
      (r.again = true → r.restarted = false → (u.slice sl).hold = (s.slice sl).hold ∧
        (u.slice sl).recov = some { r with again := false, restarted := true, recal := true }) ∧
      (r.again = true → r.restarted = true → (u.slice sl).hold = (s.slice sl).hold ∧ (u.slice sl).recov = none ∧
        ∀ n, r.cmd = some n → s.Replied u n 0 0x12 []) ∧
      (r.again = false → (u.slice sl).recov = none ∧ (u.slice sl).hold = false ∧
        u.field oFrzFw (4 * sl + 3) (4 * sl) = 0 ∧
        u.field oRstStat 63 32 = min (s.field oRstStat 63 32 + 1) (2 ^ 32 - 1) ∧
        (∀ n, r.cmd = some n → s.Replied u n 0 0x12 []) ∧
        ∀ m, r.recal = false → (s.slice sl).migr = some m → (u.slice sl).migr = some { m with next := 0, suspended := false })) ∧
  (∀ (sl : Nat) (h : Recalibration) (s : State), s.fwRuns = false ∨ (s.slice sl).powered = false ∨
    (s.slice sl).recov = none ∨ (∃ r, (s.slice sl).recov = some r ∧ r.running = false) ∨ (∃ g, g / 4 = sl ∧ s.drained g = false) →
    exec (.recoveryComplete sl h) s = .next s)

/-- O44. COLD_RESET reads the fuses and leaves the instance number of the strap, turn and cycle 0, BOOT in RESET, every domain at
OP0, every line blank, nothing bound, queued or valid, the keep registers and FTIME as they were, and takes the block out of
PORESET_N; PORESET_ASSERT does the same but reads no fuse, keeps the instance number, holds the block, and stops its clock.
WARM_RESET, with no shaving under way and every slice powered, keeps every line, the instance number, the fuse image, the keep
registers and each window's generation, and leaves nothing bound or valid; with PORESET_N low or in PS3 it changes nothing. -/
def Obligations.ResetsOfTheBlock : Prop :=
  (∀ (i : Nat) (f : List (Nat × Nat)) (s : State), s.build.ok = true →
    ∃ t : State, exec (.coldReset i f) s = .next t ∧ t.iid = i % 2 ^ 15 ∧ t.turn = 0 ∧ t.cyc = 0 ∧ t.boot = 0 ∧ t.ps = 0 ∧
      t.pins.poreset = false ∧ t.mem = [] ∧ t.save = [] ∧ t.bound = [] ∧ t.waiters = [] ∧ t.timedQ = [] ∧
      (∀ n, n < 256 → t.rgnValid n = false) ∧ (∀ k, k < 64 → t.reg (oKeep k) = s.reg (oKeep k)) ∧
      (∀ p, t.port p = Port.fresh p) ∧ (∀ sl, sl < s.build.slices → (t.slice sl).powered = true) ∧
      (∀ d, d ≤ s.build.slices → t.opOf d = 0) ∧ (∀ a, tget 0 t.fuse.words a = fuseWord f a) ∧
      t.ftime = s.ftime ∧ t.pending = s.pending ∧
      t.driven = ((fuseReads f).map fun a => Out.fuseRd (a % 2 ^ 14)).reverse ++ s.driven) ∧
  (∀ s : State, ∃ t : State, exec .poresetAssert s = .next t ∧ t.pins.poreset = true ∧ t.iid = s.iid ∧ t.turn = 0 ∧ t.cyc = 0 ∧
      t.boot = 0 ∧ t.mem = [] ∧ t.save = [] ∧ t.bound = [] ∧ t.waiters = [] ∧ t.timedQ = [] ∧
      (∀ n, n < 256 → t.rgnValid n = false) ∧ (∀ p, t.port p = Port.fresh p) ∧
      (∀ k, k < 64 → t.reg (oKeep k) = s.reg (oKeep k)) ∧ t.ftime = s.ftime ∧ t.wrap = s.wrap ∧
      t.driven = s.driven ∧ t.pending = s.pending ∧ t.tick = t) ∧
  (∀ s : State, s.pins.poreset = true ∨ s.ps = 3 → exec .warmReset s = .next s) ∧
  (∀ s : State, s.build.ok = true → s.pins.poreset = false → s.ps ≠ 3 → (∀ sl, (s.slice sl).shaving = none ∧
    (s.slice sl).powered = true) →
    ∃ t : State, exec .warmReset s = .next t ∧ t.mem = s.mem ∧ t.save = [] ∧ t.iid = s.iid ∧ t.turn = 0 ∧ t.cyc = 0 ∧
      t.boot = 0 ∧
      t.fuse = s.fuse ∧ t.bound = [] ∧ (∀ n, n < 256 → t.rgnValid n = false) ∧
      (∀ k, k < 64 → t.reg (oKeep k) = s.reg (oKeep k)) ∧ (∀ w, w < 256 → t.winGen w = s.winGen w ∧ t.winOpen w = false) ∧
      t.reg oIdFuse = s.reg oIdFuse ∧ (∀ p, t.port p = Port.fresh p) ∧ t.pending = s.pending)

/-- O45. SELF_TEST_DONE in RESET, F's voltage there, opens load space, cleared, in LOAD. A write of 1 to BOOT.CTL.GO in LOAD or
FAIL starts CHECK and counts it. IMAGE_CHECK ends CHECK: in FAIL with the reason of the first check that fails, noted in
CMD.STAT.BOOT, else in INIT with the image's version and digest. SECEN_INIT_DONE ends INIT: with success, every core running,
READY, command numbers at 0 and no slice's engine stopped; without, FAIL with reason 7. In any other state of BOOT they change
nothing but that the write is answered. -/
def Obligations.BootSequence : Prop :=
  (∀ s : State, if s.boot = 0 ∧ s.pins.poreset = false ∧ (s.dom 0).setting = none then
      ∃ t : State, exec .selfTestDone s = .next t ∧ t.boot = 1 ∧ (∀ a, t.loadByte a = 0) ∧ (∀ o, o ≠ oBootStat →
        t.reg o = s.reg o) ∧
        t.mem = s.mem
    else exec .selfTestDone s = .next s) ∧
  (∀ s : State, s.Reached →
    ∃ t : State, exec .bootGo s = .next t ∧ s.Accessed t 0 ∧
      (if s.boot = 1 ∨ s.boot = 3 then t.boot = 2 ∧ t.field oBootStat 59 56 = 0 ∧
          t.field oBootStat 15 0 = min (s.field oBootStat 15 0 + 1) (2 ^ 16 - 1) ∧ ∀ o, o ≠ oBootStat → t.reg o = s.reg o
        else t.regs = s.regs)) ∧
  (∀ s : State, s.boot = 2 → s.pins.poreset = false →
    ∃ t : State, exec .imageCheck s = .next t ∧ t.mem = s.mem ∧
      (∀ r, s.imageReason = some r → r < 16 ∧ t.boot = 3 ∧ t.field oBootStat 59 56 = r ∧ t.bit oCmdStat 0 = true ∧
        t.fw = s.fw ∧ ∀ o, o ≠ oBootStat → o ≠ oCmdStat → t.reg o = s.reg o) ∧
      (s.imageReason = none → t.boot = 4 ∧ t.field oBootStat 59 56 = 0 ∧ t.fw.verMajor = hdrNum s.header 0x10 2 ∧
        t.fw.verMinor = hdrNum s.header 0x12 2 ∧ t.fw.verPatch = hdrNum s.header 0x14 2 ∧
        t.fw.digest = sha384 (s.signed s.header) ∧
        ∀ o, o ≠ oBootStat → o ≠ oAge → o ≠ oOpAvail → o ≠ oOps → o ≠ oNote → t.reg o = s.reg o)) ∧
  (∀ s : State, s.boot ≠ 2 ∨ s.pins.poreset = true → exec .imageCheck s = .next s) ∧
  (∀ (ts : List SpareTest) (s : State), s.boot = 4 → s.pins.poreset = false → s.fw.hung = 0 →
    (∃ t : State, exec (.secenInitDone none) s = .next t ∧ t.boot = 3 ∧ t.field oBootStat 59 56 = 7 ∧
      t.bit oCmdStat 0 = true ∧ t.mem = s.mem ∧ t.fw = s.fw ∧ ∀ o, o ≠ oBootStat → o ≠ oCmdStat → t.reg o = s.reg o) ∧
    (s.build.ok = true → s.fw.stopped = 0 →
      ∃ t : State, exec (.secenInitDone (some ts)) s = .next t ∧ t.boot = 5 ∧ t.posted = 0 ∧ t.done = 0 ∧
      t.bit oCmdStat 0 = true ∧ t.fw.running = [] ∧ t.fw.replied = [] ∧ t.mem = s.mem ∧
      ∀ sl, sl < s.build.slices → (t.slice sl).stopped = false)) ∧
  (∀ (ts : Option (List SpareTest)) (s : State), s.boot ≠ 4 ∨ s.pins.poreset = true ∨ s.fw.hung ≠ 0 ∨
    (ts ≠ none ∧ s.fw.stopped ≠ 0) → exec (.secenInitDone ts) s = .next s)

/-- O46. VF_READY ends a pending request: the domain settles at the code asked for and VF_VREQ falls; its release frees the
handshake, after which the next step may begin; a request unanswered for VFTO turns sets PWR.NOTE.VF_TO once. DROOP marks a
domain of the part, DROOP_CLEAR ends it, DROOP_LONG at 256 cycles notes it and, where CC1 runs, caps the target one point
below the running one. VA_LOST notes GLB.TRIP.VA and switches every slice off, held. THERMAL_TRIP gates the classes fully, is
noted, and, where CC1 runs, aims every domain one point lower. -/
def Obligations.SupplyAndDroop : Prop :=
  (∀ s : State, s.pins.vfVreq = true → s.pins.vfReady = false →
    ∃ t : State, exec .vfReady s = .next t ∧ (t.dom 0).settled = s.pins.vfVid ∧ (t.dom 0).setting = none ∧
      t.pins.vfVreq = false ∧
      t.pins.vfReady = true ∧ t.pw.vfStuck = false ∧ t.regs = s.regs ∧ ∀ d, d ≠ 0 → t.dom d = s.dom d) ∧
  (∀ s : State, s.pins.vfVreq = false ∨ s.pins.vfReady = true → exec .vfReady s = .next s) ∧
  (∀ s : State, s.pins.vfReady = true → s.pins.vfVreq = false →
    ∃ u : State, exec .vfReadyRelease s = .next (if s.ps ≤ 1 then u.seqVolt 0 0 else u) ∧
      u.vidFree = true ∧ { u with pins := s.pins } = s) ∧
  (∀ s : State, s.pins.vfReady = false ∨ s.pins.vfVreq = true → exec .vfReadyRelease s = .next s) ∧
  (∀ s : State, if s.pins.vfVreq = true ∧ s.pins.vfReady = false ∧ s.pw.vfStuck = false ∧
      s.pw.vfSince + max 1 (s.field oPwrCfg 47 32) ≤ s.turn then
      ∃ t : State, exec .vfTimeout s = .next t ∧ t.bit oNote 3 = true ∧ t.pw.vfStuck = true ∧ ∀ o, o ≠ oNote → t.reg o = s.reg o
    else exec .vfTimeout s = .next s) ∧
  (∀ (d : Nat) (s : State), if d ≤ s.build.slices ∧ (s.dom d).droop = false ∧ s.ps = 0 ∧ s.pins.poreset = false then
      ∃ t : State, exec (.droop d) s = .next t ∧ (t.dom d).droop = true ∧ (t.dom d).droopCnt = 0 ∧ t.regs = s.regs ∧
        t.mem = s.mem ∧ ∀ e, e ≠ d → t.dom e = s.dom e
    else exec (.droop d) s = .next s) ∧
  (∀ (d : Nat) (s : State), (s.dom d).droop = true →
    ∃ u : State, exec (.droopClear d) s = .next (u.seqVolt d (s.turn + 2)) ∧ (u.dom d).droop = false ∧ u.regs = s.regs) ∧
  (∀ (d : Nat) (s : State), ((s.dom d).droop = false → exec (.droopClear d) s = .next s) ∧
    ((s.dom d).droop = false ∨ (s.dom d).droopCnt ≠ 256 → exec (.droopLong d) s = .next s)) ∧
  (∀ (d : Nat) (s : State), s.build.ok = true → d ≤ s.build.slices → (s.dom d).droop = true → (s.dom d).droopCnt = 256 →
    ∃ t : State, exec (.droopLong d) s = .next t ∧ t.bit oNote 0 = true ∧ t.bit oDroop (48 + d) = true ∧
      (t.dom d).droopCnt = 257 ∧ t.mem = s.mem ∧
      (s.coreRuns 1 = true → (t.dom d).droopCap = some (s.opOf d - 1) ∧ t.tgtOf d = t.goal d)) ∧
  (∀ s : State, s.pins.poreset = false → s.ps ≠ 3 → s.build.ok = true →
    ∃ u : State, exec .vaLost s = .next u.settleAll ∧ u.bit oTrip 40 = true ∧ u.pins.vaOk = false ∧
      ∀ sl, sl < s.build.slices → (u.slice sl).powered = false ∧ (u.slice sl).hold = true ∧ u.bit oRstFault (8 + sl) = true) ∧
  (∀ s : State, s.pins.poreset = true ∨ s.ps = 3 → exec .vaLost s = .next s) ∧
  (∀ s : State, s.pins.poreset = false → s.pw.tripped = false → s.ps = 0 → s.pw.entry = none → s.build.ok = true →
    ∃ t : State, exec .thermalTrip s = .next t ∧ t.bit oTrip 63 = true ∧ t.gateOf 2 = 6 ∧ t.gateOf 3 = 6 ∧ t.gateOf 4 = 6 ∧
      t.gateOf 5 = 8 ∧ t.pw.tripped = true ∧ t.mem = s.mem ∧
      ((∃ d, d ≤ s.build.slices ∧ 0 < s.opOf d) → t.bit oNote 6 = true) ∧
      (s.coreRuns 1 = true → ∀ d, d ≤ s.build.slices → t.tgtOf d = s.opOf d - 1)) ∧
  (∀ s : State, s.pins.poreset = true ∨ s.pw.tripped = true → exec .thermalTrip s = .next s)

/-- O47. FTIME_BAD, FTIME having decreased or stood still for 256 cycles, sets SYNC.ERR.FTIME_BAD and takes the sample in.
AGEING_SAMPLE, due, adds each clocked domain's margin to its last eight and sets the next 60 run minutes on. AGEING_REPLAN,
due, sets the next 1,440 run minutes on and lowers no domain's ageing offset, raising it by at most one but at the first plan.
RUN_MINUTE advances KEEP.RUN.MINUTES, saturating, where CC0 runs. KEEP_DOMAIN_LOSS loses every keep register: each holds a
free value (log 9), and nothing else changes. -/
def Obligations.TimeAndAgeing : Prop :=
  (∀ (f : Word) (s : State), if s.pins.poreset = true then exec (.ftimeBad f) s = .next s else
    ∃ t : State, exec (.ftimeBad f) s = .next t ∧ t.ftime = f ∧
      t.bit oSyncErr 3 = true ∧ (∀ k, k < 64 → k ≠ 3 → t.bit oSyncErr k = s.bit oSyncErr k) ∧
      (∀ o, o ≠ oSyncErr → t.reg o = s.reg o) ∧
      { t with ftime := s.ftime, regs := s.regs } = s) ∧
  (∀ s : State, if s.fwReady = true ∧ s.ps = 0 ∧ s.fw.sampleAt ≤ s.minutes then
      ∃ t : State, exec .ageingSample s = .next t ∧ t.fw.sampleAt = s.fw.sampleAt + 60 ∧ t.regs = s.regs ∧ t.mem = s.mem ∧
        ∀ d, d ≤ s.build.slices →
          (t.dom d).samples = (if s.clocked d = true then (s.field (oAgemon d) 7 0 :: (s.dom d).samples).take 8
          else (s.dom d).samples)
    else exec .ageingSample s = .next s) ∧
  (∀ s : State, s.build.ok = true → s.fwReady = true → s.fw.replanAt ≤ s.minutes →
    ∃ t : State, exec .ageingReplan s = .next t ∧ t.fw.replanAt = s.fw.replanAt + 1440 ∧ t.fw.firstPlan = false ∧
      t.mem = s.mem ∧
      (∀ d, d ≤ s.build.slices → s.ageOf d ≤ t.ageOf d) ∧
      (s.fw.firstPlan = false → ∀ d, d ≤ s.build.slices → t.ageOf d ≤ s.ageOf d + 1) ∧
      ∀ d, d ≤ s.build.slices → (s.dom d).samples.length < 8 → t.ageOf d = s.ageOf d) ∧
  (∀ s : State, s.fwReady = false ∨ (s.minutes < s.fw.replanAt ∧ s.fw.firstPlan = false) → exec .ageingReplan s = .next s) ∧
  (∀ s : State, if s.coreRuns 0 = true ∧ s.pins.poreset = false ∧ s.ps ≠ 3 then
      ∃ t : State, exec .runMinute s = .next t ∧ t.minutes = min (s.minutes + 1) (2 ^ 32 - 1) ∧
        (∀ o, o ≠ oKeep 27 → o ≠ oKeep 0 → t.reg o = s.reg o) ∧ { t with regs := s.regs } = s
    else exec .runMinute s = .next s) ∧
  (∀ s : State, ∃ t : State, exec .keepDomainLoss s = .next t ∧ (∀ k, k < 64 → t.reg (oKeep k) = Config.keepWord s.free k) ∧
      (∀ o, (∀ k, k < 64 → o ≠ oKeep k) → t.reg o = s.reg o) ∧ { t with regs := s.regs, free := s.free } = s)

/-- O48. For each of the 28 opcodes: a command that is not waiting for a reply, already runs, waits behind its lane, is of another
opcode, or for which firmware does not run in PS0, changes nothing. One that firmware accepts and a row of Table 12.8 refuses
is answered FORMAT with that row as its detail, and nothing else changes; CMD.DONE passes it where it was the next one and the
one after is unanswered. A command of an undefined opcode is answered FORMAT by row 1 or row 2. -/
def Obligations.CommandsAreChecked : Prop :=
  (∀ e ∈ commandRows, ∀ (n : Nat) (s : State), s.cmdReady n e.1 = false → exec (e.2 n) s = .next s) ∧
  (∀ e ∈ commandRows, ∀ (n k : Nat) (s : State), s.cmdReady n e.1 = true → s.generalCheck n = some k →
    ∃ t : State, exec (e.2 n) s = .next t ∧ s.OnlyReplied t n 6 k [] ∧
      (s.done = n → s.fw.replied.contains ((n + 1) % 2 ^ 32) = false → t.done = (n + 1) % 2 ^ 32)) ∧
  (∀ (n : Nat) (s : State), laneOf (s.cmdOpc n) = none → s.cmdReady n (s.cmdOpc n) = true →
    ∃ t : State, exec (.undefinedCommand n) s = .next t ∧ s.OnlyReplied t n 6 (if s.cmdF n 0 63 32 = n then 2 else 1) []) ∧
  (∀ (n : Nat) (s : State), laneOf (s.cmdOpc n) ≠ none ∨ s.cmdReady n (s.cmdOpc n) = false →
    exec (.undefinedCommand n) s = .next s)

/-- O49. ECHO returns its seven words. GET_INFO returns version, configuration, instance, free entries with DEAD banks, run hours
and TWIN.STAT; FW_INFO the version, the build and 40 bytes of the digest. KEEP_READ returns one to six keep registers or
RANGE. KEEP_ERASE needs its key word (FORMAT) and a named part (RANGE), and then leaves every register of the named parts 0
and every other register but KEEP.HDR as it was. -/
def Obligations.QueriesAndKeepCommands : Prop :=
  (∀ (n : Nat) (s : State), s.Serves n opcEcho →
    ∃ t : State, exec (.echo n) s = .next t ∧ s.OnlyReplied t n 0 0x11 ((List.range 7).map fun i => s.cmdW n (i + 1))) ∧
  (∀ (n : Nat) (s : State), s.Serves n opcGetInfo →
    ∃ t : State, exec (.getInfo n) s = .next t ∧ s.OnlyReplied t n 0 0x11
      [s.idVersion, s.idConfig, s.iid, s.infoCounts, s.minutes / 60 % 2 ^ 32, s.twinStat.toNat]) ∧
  (∀ (n : Nat) (s : State), s.Serves n opcFwInfo →
    ∃ t : State, exec (.fwInfo n) s = .next t ∧ s.OnlyReplied t n 0 0x11
      ([s.fw.verMajor * 2 ^ 32 + s.fw.verMinor * 2 ^ 16 + s.fw.verPatch, s.fw.build] ++ s.digestWords)) ∧
  (∀ (n i c : Nat) (s : State), s.Serves n opcKeepRead → i = s.cmdF n 1 7 0 → c = s.cmdF n 1 11 8 →
    (63 < i ∨ c = 0 ∨ 6 < c ∨ 64 < i + c → ∃ t : State, exec (.keepRead n) s = .next t ∧ s.OnlyReplied t n 5 0x11 []) ∧
    (i ≤ 63 → 1 ≤ c → c ≤ 6 → i + c ≤ 64 → ∃ (t : State) (ws : List Nat), exec (.keepRead n) s = .next t ∧
      s.OnlyReplied t n 0 0x12 (s.cmdW n 1 :: ws) ∧ ws.length = c ∧ ∀ k, k < c → ws[k]? = some (s.reg (oKeep (i + k))).toNat)) ∧
  (∀ (n : Nat) (s : State), s.Serves n opcKeepErase →
    s.Refuses (.keepErase n) n [(s.cmdW n 2 ≠ 0x4B454550, 6, 1), (s.cmdF n 1 2 0 = 0, 5, 2)] ∧
    (s.cmdW n 2 = 0x4B454550 → s.cmdF n 1 2 0 ≠ 0 →
      ∃ t : State, exec (.keepErase n) s = .next t ∧ s.Replied t n 0 0x13 [] ∧
        (∀ i k, i < 3 → bitAt (s.cmdF n 1 2 0) i = true → k ∈ keepPart i → t.reg (oKeep k) = 0) ∧
        (∀ o, ¬ replyReg n o → o ≠ oKeep 0 → (∀ i k, i < 3 → bitAt (s.cmdF n 1 2 0) i = true → k ∈ keepPart i → o ≠ oKeep k) →
          t.reg o = s.reg o) ∧ { t with regs := s.regs, fw := s.fw } = s))

/-- O50. Each check of Table 2.7 and of R203 is answered with its code and outcome, the first that holds. A definition that passes
is in force with the reply: entry valid, unlocked, with span and attributes as given; where the region is a twin region before
or after it, the peer is asked first, a valid entry under lock. A deletion makes the entry invalid, its lines unchanged; of a
twin region the peer is asked first. A clear locks the region and blanks every line of it: none but a DEAD bank's stays valid
or poisoned, and no data byte changes; of a twin region the peer is asked too. REGION_CLEAR_DONE, once the peer has answered,
unlocks and answers OK. -/
def Obligations.RegionsDefinedDeletedCleared : Prop :=
  (∀ (n ix : Nat) (d : RgnDef) (s : State), s.Serves n opcRegionDefine → ix = s.cmdF n 1 15 0 →
    d = { span := s.cmdW n 2, attr := s.cmdW n 3, aux := s.cmdW n 4 } →
    let pair := d.twin = true ∨ (s.rgnValid ix = true ∧ s.rgnTwin ix = true)
    s.Refuses (.regionDefine n) n [(s.spanOk ix d = false, 5, 1), (d.formOk s.build.slices = false, 6, 3),
      (pair ∧ s.twin ≠ twinUp, 12, 4), (¬ pair ∧ s.rgnBusy ix = true, 11, 5)] ∧
    (s.spanOk ix d = true → d.formOk s.build.slices = true →
      (pair → s.twin = twinUp → ∃ t : State, exec (.regionDefine n) s = .next t ∧ t.runs n ∧
        t.tp.regionCmd = some (n, ix, msgRegion) ∧ (s.rgnValid ix = true → t.rgnLock ix = true) ∧
        (∀ o, o ≠ oRgn ix 0 → t.reg o = s.reg o) ∧ t.mem = s.mem) ∧
      (¬ pair → s.rgnBusy ix = false → ∃ t : State, exec (.regionDefine n) s = .next t ∧ s.Replied t n 0 0x16 [] ∧
          t.rgnValid ix = true ∧
        t.rgnLock ix = false ∧ t.rgnBase ix = d.base ∧ t.rgnSize ix = d.size ∧ t.rgnFmt ix = d.fmt ∧
        t.reg (oRgn ix 8) = BitVec.ofNat 64 (d.attr &&& 0x1FFF0007FFFF03FF) ∧
        t.reg (oRgn ix 16) = BitVec.ofNat 64 (d.aux &&& 0x3FFFFFFFFFFF) ∧
        (∀ o, ¬ replyReg n o → o ≠ oRgn ix 0 → o ≠ oRgn ix 8 → o ≠ oRgn ix 16 → t.reg o = s.reg o) ∧
        { t with regs := s.regs, fw := s.fw } = s))) ∧
  (∀ (n ix : Nat) (s : State), s.Serves n opcRegionDelete → ix = s.cmdF n 1 15 0 →
    s.Refuses (.regionDelete n) n [(255 < ix ∨ s.rgnValid ix = false, 5, 2), (s.rgnTwin ix = true ∧ s.twin ≠ twinUp, 12, 4),
      (s.rgnBusy ix = true, 11, 5)] ∧
    (ix ≤ 255 → s.rgnValid ix = true → s.rgnBusy ix = false →
      (s.rgnTwin ix = true → s.twin = twinUp → ∃ t : State, exec (.regionDelete n) s = .next t ∧ t.runs n ∧
        t.tp.regionCmd = some (n, ix, msgDelete) ∧ t.rgnLock ix = true ∧ t.mem = s.mem) ∧
      (s.rgnTwin ix = false → ∃ t : State, exec (.regionDelete n) s = .next t ∧ s.Replied t n 0 0x16 [] ∧
        t.rgnValid ix = false ∧
        (∀ o, ¬ replyReg n o → o ≠ oRgn ix 0 → t.reg o = s.reg o) ∧ { t with regs := s.regs, fw := s.fw } = s))) ∧
  (∀ (n ix : Nat) (s : State), s.Serves n opcRegionClear → ix = s.cmdF n 1 15 0 →
    s.Refuses (.regionClear n) n [(255 < ix ∨ s.rgnValid ix = false, 5, 2), (s.rgnTwin ix = true ∧ s.twin ≠ twinUp, 12, 4),
      (s.rgnBusy ix = true, 11, 5)] ∧
    (ix ≤ 255 → s.rgnValid ix = true → s.rgnBusy ix = false → (s.rgnTwin ix = true → s.twin = twinUp) → s.memOk = true →
      ∃ t : State, exec (.regionClear n) s = .next t ∧ t.runs n ∧ t.fw.clearing = some (some n, ix) ∧ t.rgnLock ix = true ∧
        (s.rgnTwin ix = true → t.tp.regionCmd = some (n, ix, msgClear)) ∧
        (∀ i, i < s.rgnSize ix * 512 → ∀ pl, pl = s.place ix (s.rgnBase ix * 512 + i) → s.dead pl.1 = false →
          (t.image (s.home pl.1 pl.2)).valid = false ∧ (t.image (s.home pl.1 pl.2)).poison = false) ∧
        ∀ a, a % 256 ≠ 148 → tfind t.mem a = tfind s.mem a ∧ tfind t.save a = tfind s.save a)) ∧
  (∀ s : State, s.fw.clearing = none ∨ s.coreRuns 0 = false ∨ s.tp.regionCmd.isSome = true → exec .regionClearDone s = .next s) ∧
  (∀ (n ix : Nat) (s : State), s.fw.clearing = some (some n, ix) → ix < 256 → s.fwRuns = true → s.tp.regionCmd = none →
    s.runs n →
    ∃ t : State, exec .regionClearDone s = .next t ∧ s.Replied t n 0 0x16 [] ∧ t.fw.clearing = none ∧ t.rgnLock ix = false ∧
      t.rgnValid ix = s.rgnValid ix ∧ t.mem = s.mem)

/-- O51. WINDOW_OPEN answers the first check of Table 9.3 that holds; otherwise the window is open with its next generation, its
context, span, sender match and mask, its region is held once more, and the reply's first word is the generation. WINDOW_CLOSE
of an open window clears OPEN and leaves no batch entry of the window, every other one as it was. Once PENDING is 0, CC3
running, WINDOW_CLOSE_DONE makes the entry invalid, ends the hold on the region and answers OK; before, it changes nothing. -/
def Obligations.WindowsOpenedAndClosed : Prop :=
  (∀ (n w : Nat) (s : State), s.Serves n opcWindowOpen → w = s.cmdF n 1 15 0 →
    s.Refuses (.windowOpen n) n [(s.hasPort 10 = false ∨ 255 < w ∨ s.cmdF n 2 30 16 = 0, 5, 1),
      (s.regionOfSpan (s.cmdF n 2 13 0) (s.cmdF n 2 30 16) = none, 5, 2), (s.isBound (s.cmdF n 1 41 32) = false, 10, 3),
      (s.tab (oWin w) 63 63 = 1, 11, 4)] ∧
    ∀ rgn, s.hasPort 10 = true → w ≤ 255 → s.cmdF n 2 30 16 ≠ 0 →
      s.regionOfSpan (s.cmdF n 2 13 0) (s.cmdF n 2 30 16) = some rgn →
      s.isBound (s.cmdF n 1 41 32) = true → s.tab (oWin w) 63 63 = 0 →
      ∃ t : State, exec (.windowOpen n) s = .next t ∧ s.Replied t n 0 0x16 [(s.winGen w + 1) % 2 ^ 16] ∧
        t.winGen w = (s.winGen w + 1) % 2 ^ 16 ∧ t.winOpen w = true ∧ t.tab (oWin w) 63 63 = 1 ∧ t.winCtx w = s.cmdF n 1 41 32 ∧
        t.winBase w = s.cmdF n 2 13 0 ∧ t.winSize w = s.cmdF n 2 30 16 ∧
        t.reg (oSnd w) = BitVec.ofNat 64 (s.cmdF n 3 30 16 * 2 ^ 16 + s.cmdF n 3 14 0) ∧
        t.inflight rgn = min (s.inflight rgn + 1) (2 ^ 16 - 1) ∧
        (∀ o, ¬ replyReg n o → o ≠ oWin w → o ≠ oSnd w → o ≠ oRgn rgn 24 → t.reg o = s.reg o) ∧
        { t with regs := s.regs, fw := s.fw } = s) ∧
  (∀ (n w : Nat) (s : State), s.Serves n opcWindowClose → w = s.cmdF n 1 15 0 →
    s.Refuses (.windowClose n) n [(s.hasPort 10 = false ∨ 255 < w, 5, 1), (s.winOpen w = false, 5, 5)] ∧
    (s.hasPort 10 = true → w ≤ 255 → s.winOpen w = true → ∃ t : State, exec (.windowClose n) s = .next t ∧ t.runs n ∧
      t.fw.closingWin = some (n, w) ∧ t.winOpen w = false ∧ t.winGen w = s.winGen w ∧ (∀ e ∈ t.rp.batches, e.2.win ≠ w) ∧
      (∀ e ∈ s.rp.batches, (∀ f ∈ s.rp.batches, f.1 = e.1 → f = e) → e.2.win ≠ w → e ∈ t.rp.batches) ∧ t.mem = s.mem)) ∧
  (∀ s : State, s.fw.closingWin = none ∨ s.coreRuns 3 = false → exec .windowCloseDone s = .next s) ∧
  (∀ (n w : Nat) (s : State), s.fw.closingWin = some (n, w) → s.coreRuns 3 = true → s.fw.hung = 0 → w < 256 →
    if s.tab (oSnd w) 47 32 ≠ 0 then exec .windowCloseDone s = .next s
    else ∃ t : State, exec .windowCloseDone s = .next t ∧ s.Replied t n 0 0x16 [] ∧ t.fw.closingWin = none ∧
      t.tab (oWin w) 63 63 = 0 ∧ t.winGen w = s.winGen w ∧
      (∀ rgn, s.regionOfSpan (s.winBase w) (s.winSize w) = some rgn → t.inflight rgn = s.inflight rgn - 1) ∧ t.mem = s.mem)

/-- O52. CTX_BIND answers the first check of Table 7.6 that holds; otherwise the context is bound with the counts, keys, routes
and epoch given, every counter 0 and every flag clear. CTX_UNBIND of a context that is bound, unpinned and not referred to
leaves it unbound and its slot empty. RING_DECLARE answers the first check of R157 that holds; with CAP 0 it removes the ring
of the two counters, or answers RANGE; otherwise, its context resident, the lowest free entry holds the ring, its number
returned, its mark at P for room and at C for data; where the context cannot be made resident the command waits. -/
def Obligations.ContextsAndRings : Prop :=
  (∀ (n c : Nat) (b : Bound) (s : State), s.Serves n opcCtxBind → c = s.cmdF n 1 9 0 →
    b = { ccnt := s.cmdF n 2 28 16, fcnt := s.cmdF n 3 30 16, rbase := s.cmdF n 2 14 8, rcnt := s.cmdF n 2 7 0,
          ecen := s.cmdF n 3 12 12 == 1, ectr := s.cmdF n 3 11 0, epoch := s.cmdF n 1 63 32, keys := s.cmdF n 4 31 0,
          ctrs := [], flgs := [] } →
    s.Refuses (.ctxBind n) n [(4096 < b.ccnt ∨ 16384 < b.fcnt ∨ 128 < b.rbase + b.rcnt ∨ (b.ecen = true ∧ b.ccnt ≤ b.ectr) ∨
        16384 < s.boundTotals.1 + b.ccnt ∨ 65536 < s.boundTotals.2 + b.fcnt, 5, 1), (s.isBound c = true, 11, 2)] ∧
    (b.ccnt ≤ 4096 → b.fcnt ≤ 16384 → b.rbase + b.rcnt ≤ 128 → (b.ecen = true → b.ectr < b.ccnt) →
      s.boundTotals.1 + b.ccnt ≤ 16384 → s.boundTotals.2 + b.fcnt ≤ 65536 → s.isBound c = false →
      ∃ t : State, exec (.ctxBind n) s = .next t ∧ s.Replied t n 0 0x15 [] ∧ t.isBound c = true ∧ t.boundOf c = b ∧
        (∀ e, e ≠ c → t.boundOf e = s.boundOf e) ∧ (∀ o, ¬ replyReg n o → t.reg o = s.reg o) ∧
        { t with regs := s.regs, fw := s.fw, bound := s.bound } = s)) ∧
  (∀ (n c : Nat) (s : State), s.Serves n opcCtxUnbind → c = s.cmdF n 1 9 0 →
    s.Refuses (.ctxUnbind n) n [(s.isBound c = false, 10, 3),
      ((∃ i, s.slotOf c = some i ∧ s.pinned i = true) ∨ s.ctxReferred c = true, 11, 4)] ∧
    (s.isBound c = true → s.ctxReferred c = false → (∀ i, s.slotOf c = some i → s.pinned i = false) → trising s.bound = true →
      ∃ t : State, exec (.ctxUnbind n) s = .next t ∧ s.Replied t n 0 0x15 [] ∧ t.isBound c = false ∧
        (∀ e, e ≠ c → t.isBound e = s.isBound e) ∧
        (∀ i, s.slotOf c = some i → t.tab (oCtxt i 0) 63 63 = 0) ∧ t.counters = s.counters ∧ t.flags = s.flags ∧
          t.mem = s.mem)) ∧
  (∀ (n c : Nat) (s : State), s.Serves n opcRingDeclare → c = s.cmdF n 1 9 0 →
    s.Refuses (.ringDeclare n) n [(s.isBound c = false ∨ (s.boundOf c).ccnt ≤ s.cmdF n 1 27 16 ∨
      (s.boundOf c).ccnt ≤ s.cmdF n 1 43 32, 10, 1)] ∧
    (s.isBound c = true → s.cmdF n 1 27 16 < (s.boundOf c).ccnt → s.cmdF n 1 43 32 < (s.boundOf c).ccnt →
      (s.cmdF n 2 31 16 = 0 → ∀ k, s.ctxRing c (s.cmdF n 1 27 16) = some k → s.ctxRing c (s.cmdF n 1 43 32) = some k →
        ∃ t : State, exec (.ringDeclare n) s = .next t ∧ s.Replied t n 0 0x14 [k] ∧ t.reg (oRing k) = 0 ∧
          (∀ o, ¬ replyReg n o → o ≠ oRing k → t.reg o = s.reg o)) ∧
      (s.cmdF n 2 31 16 = 0 → (∀ k, ¬ (s.ctxRing c (s.cmdF n 1 27 16) = some k ∧ s.ctxRing c (s.cmdF n 1 43 32) = some k)) →
        ∃ t : State, exec (.ringDeclare n) s = .next t ∧ s.OnlyReplied t n 5 0x12 []) ∧
      (s.cmdF n 2 31 16 ≠ 0 → s.Refuses (.ringDeclare n) n [(s.ringRange n c = false, 5, 2), (s.ringBusy n c = true, 11, 3)] ∧
        (s.ringRange n c = true → s.ringBusy n c = false → (s.ensureResident c).2 = false → exec (.ringDeclare n) s = .next s) ∧
        ∀ i k, s.ringRange n c = true → s.ringBusy n c = false → s.slotOf c = some i →
          (List.range 64).find? (fun k => s.tab (oRing k) 63 63 == 0) = some k →
          ∃ t : State, exec (.ringDeclare n) s = .next t ∧ s.Replied t n 0 0x14 [k] ∧ t.tab (oRing k) 63 63 = 1 ∧
            t.tab (oRing k) 55 44 = (s.cbase i + s.cmdF n 1 27 16) % 4096 ∧
            t.tab (oRing k) 43 32 = (s.cbase i + s.cmdF n 1 43 32) % 4096 ∧ t.tab (oRing k) 31 16 = s.cmdF n 2 31 16 ∧
            t.tab (oRing k) 15 8 = s.cmdF n 2 15 8 ∧ t.tab (oRing k) 62 62 = s.cmdF n 2 62 62 ∧
            tget 0 t.marks k = (if s.cmdF n 2 61 61 = 1 then t.ringC k else t.ringP k) ∧
            (∀ o, ¬ replyReg n o → o ≠ oRing k → t.reg o = s.reg o))))

/-- O53. Each answers the first of its checks that holds. PWR_ARM sets the timers and restarts the idle count; PWR_CAP sets cap
and priorities; PWR_STATE to a deeper state, nothing outstanding, begins the entry at E1, its reply to come. PHASE_DEFINE
writes a phase, PHASE_SET makes one active, DOMAIN_LOCK locks or unlocks domains; each brings every domain's target to what
the rules make of it; PHASE_SET answers once every unlocked domain runs at its target, a lock once every domain it names runs
at the locked point, and until then they run on. -/
def Obligations.PowerCommands : Prop :=
  (∀ (n : Nat) (s : State), s.Serves n opcPwrArm →
    let bad := (s.cmdF n 1 15 0 ≠ 0 ∧ s.cmdF n 1 31 16 ≠ 0 ∧
      s.cmdF n 1 31 16 ≤ s.cmdF n 1 15 0) ∨ s.absentSlices (s.cmdF n 1 39 32) = true
    s.Refuses (.pwrArm n) n [(bad, 5, 1)] ∧
    (¬ bad → ∃ t : State, exec (.pwrArm n) s = .next t ∧ s.Replied t n 0 0x12 [] ∧ t.reg oArm = BitVec.ofNat 64 (s.cmdW n 1) ∧
      t.field oIdle 31 0 = 0 ∧ (∀ o, ¬ replyReg n o → o ≠ oArm → o ≠ oIdle → t.reg o = s.reg o) ∧
      { t with regs := s.regs, fw := s.fw } = s)) ∧
  (∀ (n g : Nat) (s : State), s.Serves n opcPwrState → g = s.cmdF n 1 3 0 →
    let busy := s.pw.entry.isSome = true ∨ s.portsQuiet false = false ∨ s.idleUnits = false
    s.Refuses (.pwrState n) n [(3 < g ∨ s.absentSlices (s.cmdF n 1 39 32) = true, 5, 1), (g = 0, 0, 2), (busy, 11, 3)] ∧
    (1 ≤ g → g ≤ 3 → s.absentSlices (s.cmdF n 1 39 32) = false → ¬ busy → ∃ t : State, exec (.pwrState n) s = .next t ∧
      t.runs n ∧
      t.pw.entry = some { target := g, step := 1, cmd := some n, retain := s.cmdF n 1 39 32 } ∧ t.ps = 0 ∧
      t.field oPwrStat 61 58 = 9 ∧ (∀ o, o ≠ oPwrStat → t.reg o = s.reg o) ∧ t.mem = s.mem)) ∧
  (∀ (n : Nat) (s : State), s.Serves n opcPwrCap →
    let bad := s.cmdF n 1 7 0 < 40 ∨ 170 < s.cmdF n 1 7 0 ∨ prioOk (s.cmdF n 1 25 8) = false
    s.Refuses (.pwrCap n) n [(bad, 5, 1)] ∧
    (¬ bad → ∃ t : State, exec (.pwrCap n) s = .next t ∧ s.Replied t n 0 0x12 [] ∧ t.reg oCap = BitVec.ofNat 64 (s.cmdW n 1) ∧
      (∀ o, ¬ replyReg n o → o ≠ oCap → t.reg o = s.reg o) ∧ { t with regs := s.regs, fw := s.fw } = s)) ∧
  (∀ (n k : Nat) (s : State), s.Serves n opcPhaseDefine → k = s.cmdF n 1 7 0 → s.build.ok = true →
    s.Refuses (.phaseDefine n) n [(15 < k ∨ phaseOk (s.cmdW n 2) (s.cmdW n 3) = false, 5, 1)] ∧
    (k ≤ 15 → phaseOk (s.cmdW n 2) (s.cmdW n 3) = true → ∃ t : State, exec (.phaseDefine n) s = .next t ∧
      s.Replied t n 0 0x12 [] ∧
      t.reg (oPhaseA k) = BitVec.ofNat 64 (s.cmdW n 2) ∧ t.reg (oPhaseB k) = BitVec.ofNat 64 (s.cmdW n 3) ∧
      (∀ d, d ≤ s.build.slices → t.tgtOf d = t.goal d) ∧
      ∀ o, ¬ replyReg n o → o ≠ oPhaseA k → o ≠ oPhaseB k → o ≠ oOps → o ≠ oNote → t.reg o = s.reg o)) ∧
  (∀ (n k : Nat) (s : State), s.Serves n opcPhaseSet → k = s.cmdF n 1 7 0 → s.build.ok = true → s.pw.lockCmd = none →
    s.Refuses (.phaseSet n) n [(15 < k, 5, 1), (s.pw.entry.isSome = true, 11, 2)] ∧
    (k ≤ 15 → s.pw.entry = none → ∃ t : State, exec (.phaseSet n) s = .next t ∧ t.field oPwrStat 51 48 = k ∧
      (∀ d, d ≤ s.build.slices → t.tgtOf d = t.goal d ∧ t.opOf d = s.opOf d ∧
        (s.locked d = false → (t.dom d).lowered = 0 ∧ (t.dom d).boosted = 0)) ∧
      (if ∀ d, d ≤ s.build.slices → s.locked d = true ∨ t.opOf d = t.tgtOf d then s.Replied t n 0 0x13 [] ∧ t.pw.phaseCmd = none
       else t.runs n ∧ t.pw.phaseCmd = some n))) ∧
  (∀ (n mask op : Nat) (un : Bool) (s : State), s.Serves n opcDomainLock → s.build.ok = true → s.pw.phaseCmd = none →
    s.pw.lockCmd = none → mask = s.cmdF n 1 8 0 → op = s.cmdF n 1 18 16 → un = (s.cmdF n 1 24 24 == 1) →
    s.Refuses (.domainLock n) n [(s.lockRange mask op un = true, 5, 1), (s.lockBusy mask op un = true, 11, 2)] ∧
    (s.lockRange mask op un = false → s.lockBusy mask op un = false →
      ∃ t : State, exec (.domainLock n) s = .next t ∧ (∀ d, d ≤ s.build.slices → t.tgtOf d = t.goal d ∧ t.opOf d = s.opOf d) ∧
        (un = true → s.Replied t n 0 0x13 [] ∧ ∀ d, d ≤ 8 → t.locked d = (s.locked d && !bitAt mask d)) ∧
        (un = false → (∀ d, d ≤ 8 → t.locked d = (s.locked d || bitAt mask d)) ∧ (mask ≠ 0 → t.field oLock 18 16 = op) ∧
          (if ∀ d, d ≤ s.build.slices → bitAt mask d = true → t.opOf d = t.field oLock 18 16 then s.Replied t n 0 0x13 []
           else t.runs n ∧ t.pw.lockCmd = some (n, mask)))))

/-- O54. Each answers the first of its checks that holds. TEST_RUN starts a run of its bank's 128 shavings; CHECKER_MODE sets
INT.CHK; BANK_RETIRE starts the bank's migration to the lower free spare, or, without one, answers RANGE with NOSPARE noted.
TWIN_BIND waits for its match, sending BIND to the peer named, and is answered TWIN after 1,024 turns; an unbind dissolves the
pair. TWIN_RESYNC puts the pair in RESYNC and asks for the peer's dirty map; once all is copied RESYNC_COMPLETE brings the
pair UP with no unit dirty, and the reply returns the count of lines copied; a resync that failed takes it DOWN. -/
def Obligations.TestAndPairCommands : Prop :=
  (∀ (n lb : Nat) (s : State), s.Serves n opcTestRun → lb = s.cmdF n 1 9 0 →
    let busy := (s.slice (sliceOf lb)).migr.isSome = true ∨ (s.slice (sliceOf lb)).hold = true ∨ s.btSlot (groupOf lb) = false ∨
      s.field oBtCfg 15 0 = 0
    s.Refuses (.testRun n) n [(s.nBanks ≤ lb ∨ s.dead lb = true, 5, 1), (busy, 11, 2)] ∧
    (lb < s.nBanks → s.dead lb = false → ¬ busy → ∃ t : State, exec (.testRun n) s = .next t ∧ t.runs n ∧
      (t.slice (sliceOf lb)).test =
        some { cmd := n, lb := lb, cal := s.cmdF n 1 16 16 == 1, idx := 0, words := 0, hard := false } ∧
      { t with slices := s.slices, fw := s.fw } = s)) ∧
  (∀ (n : Nat) (s : State), s.Serves n opcCheckerMode →
    let busy := (s.port 12).outR ≠ 0 ∨ (s.port 12).outA ≠ 0 ∨ (s.port 12).inq ≠ []
    s.Refuses (.checkerMode n) n [(busy, 11, 1)] ∧
    (¬ busy → ∃ t : State, exec (.checkerMode n) s = .next t ∧ s.Replied t n 0 0x12 [] ∧
      t.reg oChk = BitVec.ofNat 64 (s.cmdF n 1 0 0) ∧ (∀ o, ¬ replyReg n o → o ≠ oChk → t.reg o = s.reg o) ∧
      { t with regs := s.regs, fw := s.fw } = s)) ∧
  (∀ (n lb : Nat) (s : State), s.Serves n opcBankRetire → lb = s.cmdF n 1 9 0 → s.build.ok = true →
    let busy := (s.slice (sliceOf lb)).migr.isSome = true ∨ (s.slice (sliceOf lb)).hold = true ∨ s.btSlot (groupOf lb) = false
    s.Refuses (.bankRetire n) n [(s.nBanks ≤ lb ∨ s.dead lb = true, 5, 1), (busy ∧ s.freeSpare (sliceOf lb) ≠ none, 11, 2)] ∧
    (lb < s.nBanks → s.dead lb = false → s.freeSpare (sliceOf lb) = none → ∃ t : State, exec (.bankRetire n) s = .next t ∧
      s.Replied t n 5 0x11 [] ∧ t.bit oIntErr 10 = true ∧ t.mem = s.mem ∧ t.slices = s.slices) ∧
    ∀ pos, lb < s.nBanks → s.dead lb = false → s.freeSpare (sliceOf lb) = some pos → ¬ busy →
      ∃ (t : State) (m : Migr), exec (.bankRetire n) s = .next t ∧ (t.slice (sliceOf lb)).migr = some m ∧ m.lb = lb ∧
        m.spare = pos ∧ m.next = 0 ∧ m.cmd = some n ∧ t.migrating lb = true ∧ t.field (oRemap lb) 14 8 = pos) ∧
  (∀ (n peer : Nat) (s : State), s.Serves n opcTwinBind → peer = s.cmdF n 1 14 0 →
    let off := s.hasPort 11 = false ∨ s.tp.link.up = false
    (s.cmdF n 1 16 16 = 1 → s.Refuses (.twinBind n) n [(off, 12, 1), (s.twinDefined = true, 11, 2)] ∧
      (¬ off → s.twinDefined = false → ∃ t : State, exec (.twinBind n) s = .next t ∧ s.Replied t n 0 0x14 [] ∧ t.twin = 0 ∧
        (s.twin ≠ 0 → t.reg oTwinStat = 0 ∧ t.tp.dirty = [] ∧ t.tp.regionCmd = none) ∧ t.mem = s.mem)) ∧
    (s.cmdF n 1 16 16 = 0 → s.Refuses (.twinBind n) n [(off, 12, 1), (s.twin ≠ 0, 11, 2)] ∧
      (¬ off → s.twin = 0 → ∃ t : State, exec (.twinBind n) s = .next t ∧ t.runs n ∧ t.tp.binding = some (n, peer, s.turn) ∧
        t.regs = s.regs ∧ t.mem = s.mem ∧ (s.LinkReady true → s.iid < 2 ^ 15 → ∃ h : Pkt,
          t.driven = .ltx true h (s.bindPayload 1) :: s.driven ∧ kType h = 10 ∧ kBit4 h = true ∧ kDiid h = peer)))) ∧
  (∀ (n peer b : Nat) (s : State), s.tp.binding = some (n, peer, b) →
    if s.coreRuns 0 = true ∧ b + 1024 ≤ s.turn then ∃ t : State, exec .twinBindTimeout s = .next t ∧
      (s.fw.hung = 0 → s.Replied t n 12 0x13 []) ∧ t.tp.binding = none ∧ t.twin = s.twin else exec .twinBindTimeout s = .next s) ∧
  (∀ s : State, s.tp.binding = none → exec .twinBindTimeout s = .next s) ∧
  (∀ (n : Nat) (s : State), s.Serves n opcTwinResync →
    s.Refuses (.twinResync n) n [(s.twin = 0 ∨ s.tp.link.up = false, 12, 1), (s.twin = twinResync ∨ s.tp.resync.isSome = true, 11, 2)] ∧
    (s.twin ≠ 0 → s.tp.link.up = true → s.twin ≠ twinResync → s.tp.resync = none →
      ∃ (t : State) (q : Resync), exec (.twinResync n) s = .next t ∧ t.runs n ∧ t.twin = twinResync ∧ t.peer = s.peer ∧
        t.tp.resync = some q ∧ q.cmd = some n ∧ q.chunks = List.range (2 * s.build.slices) ∧ q.units = [] ∧ t.mem = s.mem ∧
        (s.LinkReady true → ∃ h : Pkt, t.driven = .ltx true h (bytesLE 8 msgDirty) :: s.driven ∧ kType h = 10 ∧
          kBit4 h = true ∧ kLa h = 1))) ∧
  (∀ s : State, s.tp.resync = none → exec .resyncComplete s = .next s) ∧
  (∀ (q : Resync) (s : State), s.tp.resync = some q → s.coreRuns 0 = false ∨ q.chunks ≠ [] ∨ q.units ≠ [] ∨ s.resyncBusy = true →
    exec .resyncComplete s = .next s) ∧
  (∀ (q : Resync) (s : State), s.tp.resync = some q → s.coreRuns 0 = true → q.chunks = [] → q.units = [] → s.resyncBusy = false →
    (q.failed = false → ∃ t : State, exec .resyncComplete s = .next t ∧ t.twin = twinUp ∧ t.tp.resync = none ∧ t.tp.dirty = [] ∧
      (∀ n, q.cmd = some n → s.fw.hung = 0 → s.Replied t n 0 0x13 [q.copied]) ∧ t.mem = s.mem) ∧
    (q.failed = true → s.twin ≠ 0 → ∃ u : State, exec .resyncComplete s = .next u.settleAll ∧ u.twin = twinDown))

/-- O55. Fencing a free partner port without held headers records the reason, drives the FENCE event, refuses every beat to come,
cuts every accepted request not yet answered and closes every stream. PORT_FENCE and RESET_PARTITION answer the first check
that holds, or fence the port with reasons 1 and 4, and wait. FENCE_DRAINED, once nothing is outstanding, shows the port
fenced and answers PORT_FENCE, or resets a partner port's chuck, its waits and ranges gone and HOLD set, and answers.
PORT_UNFENCE lifts the fence, after a reset with fresh credits. RESET_SLICE holds the slice, and starts or queues its
recovery, or joins one there is. -/
def Obligations.PortsFencedAndReset : Prop :=
  (∀ (p r : Nat) (s : State), p < 10 → r < 16 → (s.port p).fence = .free → (s.port p).inq = [] →
    ∃ v : State, s.fencePort p r = v.settle p ∧ (v.port p).fence = .draining r ∧ v.field (oProg p) 63 60 = r ∧
      .evt p 4 0 0 (BitVec.ofNat 64 r) ∈ v.driven ∧ (∀ d ∈ (v.port p).due, d.refused = true) ∧
      (∀ q ∈ (v.port p).reqs, q.ans.isSome = true ∨ q.phase = .refused ∨ q.cut.isSome = true) ∧
      (v.port p).reqs.length = (s.port p).reqs.length ∧ ∀ k, k < 4 → ((v.port p).stream k).isOpen = false) ∧
  (∀ (p r : Nat) (s : State), p = 12 ∨ (s.port p).fence ≠ .free → s.fencePort p r = s) ∧
  (∀ (n p : Nat) (s : State), s.Serves n opcPortFence → p = s.cmdF n 1 3 0 →
    s.Refuses (.portFence n) n [(s.faultPort p = false, 5, 1), ((s.port p).fence ≠ .free, 11, 2)] ∧
    (s.faultPort p = true → (s.port p).fence = .free → ∃ u v : State, exec (.portFence n) s = .next v ∧
      { u with fw := s.fw } = s ∧ u.runs n ∧
      v = { (u.fencePort p 1).settleAll with fw := { (u.fencePort p 1).settleAll.fw with
        fencing := (u.fencePort p 1).settleAll.fw.fencing ++ [(n, p)] } })) ∧
  (∀ (p : Nat) (s : State), (∀ r, (s.port p).fence ≠ .draining r) ∨ (s.port p).outR ≠ 0 ∨ (s.port p).outA ≠ 0 →
    exec (.fenceDrained p) s = .next s) ∧
  (∀ (p r : Nat) (s : State), (s.port p).fence = .draining r → (s.port p).outR = 0 → (s.port p).outA = 0 →
    (s.coreRuns 0 = false → ∃ t : State, exec (.fenceDrained p) s = .next t ∧
      t.port p = { s.port p with fence := .fenced r } ∧ (∀ q, q ≠ p → t.port q = s.port q) ∧ { t with ports := s.ports } = s) ∧
    ((∀ e ∈ s.fw.fencing, e.2 ≠ p) → ∃ t : State, exec (.fenceDrained p) s = .next t ∧ t.fw.fencing = s.fw.fencing ∧
      t.port p = { s.port p with fence := .fenced r } ∧ (∀ q, q ≠ p → t.port q = s.port q) ∧
      { t with ports := s.ports, fw := s.fw } = s) ∧
    (∀ n, s.fwRuns = true → s.fw.fencing.filter (fun e => e.2 == p) = [(n, p)] →
      (s.cmdOpc n ≠ opcResetPartition → ∃ t : State, exec (.fenceDrained p) s = .next t ∧ s.Replied t n 0 0x13 [] ∧
        t.port p = { s.port p with fence := .fenced r } ∧ t.fw.fencing = s.fw.fencing.filter (fun e => e.2 != p) ∧
          t.mem = s.mem) ∧
      (s.cmdOpc n = opcResetPartition → p < 10 → ∃ u : State, exec (.fenceDrained p) s = .next (u.settleAll.outcome n 0 2) ∧
        u.port p = { Port.fresh p with fence := .fenced r } ∧ u.bit (oProg p) 59 = true ∧ (∀ w ∈ u.waiters, w.port ≠ p) ∧
        ∀ i, i < 256 → u.sbValid i = true → u.tab (oSbEnt i) 62 59 ≠ p))) ∧
  (∀ (n p : Nat) (s : State), s.Serves n opcPortUnfence → p = s.cmdF n 1 3 0 →
    s.Refuses (.portUnfence n) n [(s.faultPort p = false, 5, 1), ((s.port p).fence = .free, 11, 2)] ∧
    (s.faultPort p = true → (s.port p).fence ≠ .free → ∃ t : State, exec (.portUnfence n) s = .next t ∧
      s.Replied t n 0 0x13 [] ∧
      (t.port p).fence = .free ∧ t.bit (oProg p) 59 = false ∧ t.field (oProg p) 63 60 = 0 ∧
      (s.bit (oProg p) 59 = true → (t.port p).reqCrd = reqCredits p ∧ (t.port p).wdCrd = (Port.fresh p).wdCrd) ∧
      (s.bit (oProg p) 59 = false → (t.port p).reqCrd = (s.port p).reqCrd ∧ (t.port p).wdCrd = (s.port p).wdCrd) ∧
      (p < 10 → ∃ l, t.driven = .evt p 5 0 0 0 :: l) ∧ (∀ q, q ≠ p → t.port q = s.port q) ∧ t.mem = s.mem)) ∧
  (∀ (n p : Nat) (s : State), s.Serves n opcResetPartition → p = s.cmdF n 1 3 0 →
    s.Refuses (.resetPartition n) n [(s.faultPort p = false, 5, 1)] ∧
    (s.faultPort p = true → (s.port p).fence = .free → ∃ u v : State, exec (.resetPartition n) s = .next v ∧
      { u with fw := s.fw } = s ∧
      v = { (u.fencePort p 4).settleAll with fw := { (u.fencePort p 4).settleAll.fw with
        fencing := (u.fencePort p 4).settleAll.fw.fencing ++ [(n, p)] } }) ∧
    (∀ r, s.faultPort p = true → (s.port p).fence = .draining r → ∃ t : State, exec (.resetPartition n) s = .next t ∧ t.runs n ∧
      t.fw.fencing = s.fw.fencing ++ [(n, p)] ∧ { t with fw := s.fw } = s) ∧
    (∀ r, s.faultPort p = true → p < 10 → (s.port p).fence = .fenced r →
      ∃ u : State, exec (.resetPartition n) s = .next (u.settleAll.outcome n 0 2) ∧
        u.port p = { Port.fresh p with fence := .fenced r } ∧ u.bit (oProg p) 59 = true ∧ (∀ w ∈ u.waiters, w.port ≠ p) ∧
        (∀ i, i < 256 → u.sbValid i = true → u.tab (oSbEnt i) 62 59 ≠ p) ∧ u.field (oKeep 28) 63 58 = 36 ∧
        ((∀ q, ∀ x ∈ (s.port q).reqs, x.phase ≠ .closing) → ∀ q, q ≠ p → u.port q = s.port q) ∧ u.mem = s.mem)) ∧
  (∀ (n sl : Nat) (s : State), s.Serves n opcResetSlice → s.build.ok = true → sl = s.cmdF n 1 3 0 →
    s.Refuses (.resetSlice n) n [(s.build.slices ≤ sl, 5, 1)] ∧
    (∀ r, sl < s.build.slices → (s.slice sl).recov = some r → ∃ t : State, exec (.resetSlice n) s = .next t ∧ t.runs n ∧
      (t.slice sl).recov =
        some { r with cmd := some n, again := r.again || r.running, restarted := r.restarted && !r.running,
                          recal := r.recal || (s.cmdF n 1 8 8 == 1) } ∧
      (t.slice sl).hold = (s.slice sl).hold ∧ t.mem = s.mem) ∧
    (sl < s.build.slices → (s.slice sl).recov = none → ∃ u : State, exec (.resetSlice n) s = .next u.settleAll ∧
      (u.slice sl).hold = true ∧ u.field oFrzFw (4 * sl + 3) (4 * sl) = 15 ∧ (u.slice sl).recov = some
        { running := decide (s.recoveries < 2) && s.fw.recovQ.isEmpty, recal := (s.cmdF n 1 8 8 == 1), again := false, restarted := false, cmd := some n }))

/-- O56. In PS0, with a credit, a host write to a register of a present unit that FW or HW owns is answered and clears exactly the
ST bits it writes 1 (clearing GLB.ERR's CC_HANG clears the cores it names, and clearing a CCDBG trap its cause); it sets
GLB.ERR.OWNER_WR if and only if its value has a 1 in a bit that is neither ST nor reserved; no other bit of any register
changes. While enabled, GLB.ERR's RSVD_WR and OWNER_WR each assert IRQ_ERR; the host clears each by writing 1 to it. -/
def Obligations.ForeignRegistersAreProtected : Prop :=
  (∀ (off i : Nat) (r : RegRow) (v : Word) (s : State), s.Reached → regRow off = some (r, i) → r.owner ≠ .host →
    s.present r i ≠ 0 →
    let other := v.toNat &&& ((r.ro ||| r.rc) &&& s.present r i)
    ∃ t : State, exec (.registerWrite off v) s = .next t ∧ s.Accessed t 0 ∧
      t.bit oGlbErr 1 = (decide (other ≠ 0) || (s.bit oGlbErr 1 && !(decide (off = oGlbErr) && bitAt v.toNat 1))) ∧
      ∀ o k, k < 64 → ¬ (o = oGlbErr ∧ (k = 1 ∨ (16 ≤ k ∧ k ≤ 19))) → ¬ (oDbgTrap 0 ≤ o ∧ 32 ≤ k ∧ k ≤ 47) →
        t.bit o k = (s.bit o k && !(decide (o = off) && bitAt (r.st &&& s.present r i) k && bitAt v.toNat k))) ∧
  (∀ (k : Nat) (s : State), k ≤ 1 → s.bit oGlbErr k = true → s.bit (oIen 0) k = true → bitAt s.irqLine 0 = true) ∧
  (∀ (k : Nat) (s : State), k ≤ 1 → s.Reached →
    ∃ t : State, exec (.registerWrite oGlbErr (BitVec.ofNat 64 (2 ^ k))) s = .next t ∧ t.bit oGlbErr k = false)

/-- O57. In PS0, with a credit: a read of an offset that no register of chapter 15 has, FTIME not below its last sample, returns 0
and changes no register; a write to one (an offset a port block leaves out for its kind of port apart, R330) changes no
register but sets GLB.ERR.UNMAPPED_WR. The reserved register of a view entry reads 0, ignores writes, and sets no error bit. -/
def Obligations.UnassignedOffsets : Prop :=
  (∀ (off : Nat) (f : Word) (s : State), s.Reached → s.ftime.toNat ≤ f.toNat →
    regRow off = none ∨ (∃ e, e < 1024 ∧ off = oView e 24) →
    ∃ t : State, exec (.readClear ⟨off, f⟩) s = .next t ∧ t.driven = .regCrd :: .reg 0 :: s.driven ∧ t.regs = s.regs) ∧
  (∀ (off : Nat) (v : Word) (s : State), s.Reached → regRow off = none → otherBlock off = false →
    ∃ t : State, exec (.registerWrite off v) s = .next t ∧ s.Accessed t 0 ∧ t.bit oGlbErr 2 = true ∧
      (∀ k, k < 64 → k ≠ 2 → t.bit oGlbErr k = s.bit oGlbErr k) ∧ ∀ o, o ≠ oGlbErr → t.reg o = s.reg o) ∧
  (∀ (e : Nat) (v : Word) (s : State), s.Reached → e < 1024 →
    ∃ t : State, exec (.registerWrite (oView e 24) v) s = .next t ∧ s.Accessed t 0 ∧ ∀ o, t.reg o = s.reg o)

/-- O58. In PS0, with a credit, for each of the 1,024 view entries: a host write to S12 or S34 changes only its staging copy and
no register a read or a request sees. A host write to HDR updates the committed header (a reserved NDIM leaves that field as
it was) and in the same command copies both staged strides into the committed copy, for that entry alone. Reads of the three
registers return the committed copy. -/
def Obligations.ViewsAreCommittedByTheirHeader : Prop :=
  (∀ (e : Nat) (b : Bool) (v : Word) (s : State), s.Reached → e < 1024 →
    ∃ t : State, exec (.viewStrideWrite e b v) s = .next t ∧ t.driven = .regCrd :: .reg 0 :: s.driven ∧ t.regs = s.regs ∧
      tget 0 t.stage (oView e (if b then 16 else 8)) = v &&& 0x0FFFFFFF0FFFFFFF ∧
      (∀ o, o ≠ oView e (if b then 16 else 8) → tget 0 t.stage o = tget 0 s.stage o) ∧
      (∀ p, t.port p = s.port p) ∧ { t with stage := s.stage, driven := s.driven, pw := s.pw, ports := s.ports } = s) ∧
  (∀ (e : Nat) (v : Word) (s : State), s.Reached → e < 1024 →
    ∃ t : State, exec (.viewHdrWrite e v) s = .next t ∧ s.Accessed t 0 ∧
      t.reg (oView e 8) = tget 0 s.stage (oView e 8) ∧ t.reg (oView e 16) = tget 0 s.stage (oView e 16) ∧
      (∀ k, k < 60 → bitAt 0xF0FFFFFFFFFFFFFF k = true → t.bit (oView e 0) k = bitAt v.toNat k) ∧
      t.bit (oView e 0) 63 = bitAt v.toNat 63 ∧
      t.field (oView e 0) 62 60 = (if 1 ≤ wfld v 62 60 ∧ wfld v 62 60 ≤ 5 then wfld v 62 60 else s.field (oView e 0) 62 60) ∧
      (∀ o, o ≠ oView e 0 → o ≠ oView e 8 → o ≠ oView e 16 → o ≠ oGlbErr → t.reg o = s.reg o)) ∧
  (∀ (e : Nat) (f : Word) (s : State), s.Reached → s.ftime.toNat ≤ f.toNat → e < 1024 →
    ∀ q ∈ ([(0, 0xF0FFFFFFFFFFFFFF), (8, 0x0FFFFFFF0FFFFFFF), (16, 0x0FFFFFFF0FFFFFFF)] :
      List (Nat × Word)), ∃ t : State, exec (.readClear ⟨oView e q.1, f⟩) s = .next t ∧
      t.driven = .regCrd :: .reg (s.reg (oView e q.1) &&& q.2) :: s.driven ∧ t.regs = s.regs ∧ t.stage = s.stage) ∧
  (∀ (e : Nat) (b : Bool) (v : Word) (s : State), 1024 ≤ e → exec (.viewHdrWrite e v) s = .next s ∧
    exec (.viewStrideWrite e b v) s = .next s)

/-- O59. In PS0, with a credit: a write stores a host register's RW bits, a reserved encoding's field apart, which sets RSVD_WR;
RAMP with EN 0 sets the allowance to 64; POSTED moves on within its bounds or sets OVR; a read, FTIME sampled in it, clears
its RC bits after returning the register. A swap request sets its groups pending, armed if by cycle 4,079; a shadow table
takes a write unless its swap is pending; SLOT.RANK takes 15 distinct ranks or nothing; SLOT.FREEZE takes its bits; FLUSH
empties a VP's cache, for its earlier reads too; POP removes the oldest log entry; BT_ABORT leaves no shaving. Out of PS0 a
read that is not exempt, and any write, is not served. -/
def Obligations.HostAccessesOfTheWindow : Prop :=
  (∀ (off i : Nat) (r : RegRow) (v : Word) (s : State), s.Reached → regRow off = some (r, i) → r.owner = .host →
    s.present r i ≠ 0 →
    plainReg off = true →
    let m := BitVec.ofNat 64 ((r.rw ||| r.w1s) &&& s.present r i)
    let f := reservedField off v
    ∃ t : State, exec (.registerWrite off v) s = .next t ∧ s.Accessed t 0 ∧
      t.reg off = guardField (s.reg off) ((s.reg off &&& ~~~m) ||| (v &&& m)) f.1 f.2.1 f.2.2 ∧
      t.bit oGlbErr 0 = (s.bit oGlbErr 0 || f.2.2) ∧ ∀ o, o ≠ off → o ≠ oGlbErr → t.reg o = s.reg o) ∧
  (∀ (v : Word) (s : State), s.Reached → s.boot = bootReady →
    let n := v.toNat % 2 ^ 32
    ∃ t : State, exec (.registerWrite oCmdPosted v) s = .next t ∧ s.Accessed t 0 ∧
      if (n + 2 ^ 32 - s.posted) % 2 ^ 32 ≤ 64 ∧ (n + 2 ^ 32 - s.done) % 2 ^ 32 ≤ 64 then t.posted = n
      else t.posted = s.posted ∧ t.bit oCmdStat 2 = true) ∧
  (∀ (off i : Nat) (f : Word) (r : RegRow) (s : State), s.Reached → s.ftime.toNat ≤ f.toNat → regRow off = some (r, i) →
    ∃ u t : State, exec (.readClear ⟨off, f⟩) s = .next t ∧ t.driven = .regCrd :: .reg (u.readReg off) :: s.driven ∧
      u.ftime = f ∧ { u with ftime := s.ftime, ports := s.ports, pw := s.pw } = s ∧
      (∀ p, { u.port p with regCrd := (s.port p).regCrd } = s.port p) ∧ { u.pw with quiet := s.pw.quiet } = s.pw ∧
      t.reg off = s.reg off &&& ~~~(BitVec.ofNat 64 (r.rc &&& s.present r i)) ∧ (∀ o, o ≠ off → t.reg o = s.reg o) ∧
      t.mem = s.mem ∧ ∀ p, t.port p = s.port p) ∧
  (∀ (off : Nat) (v f : Word) (s : State), s.pins.poreset = true ∨ s.ps ≠ 0 → exec (.registerWrite off v) s = .next s ∧
    (s.pins.poreset = true ∨ s.ps = 3 ∨ exemptRead off = false → exec (.readClear ⟨off, f⟩) s = .next s)) ∧
  (∀ (p : Nat) (v : Word) (s : State), s.Reached → p ≤ 11 → s.hasPort p = true → bitAt v.toNat 3 = false →
    ∃ t : State, exec (.registerWrite (oRamp p) v) s = .next t ∧ s.Accessed t 0 ∧ t.bit (oRamp p) 3 = false ∧
      t.field (oRampStat p) 54 48 = 64) ∧
  (∀ (v : Word) (s : State), s.Reached → s.build.ok = true → ∃ t : State, exec (.slotSwap v) s = .next t ∧
      t.driven = .regCrd :: .reg 0 :: s.driven ∧
    (∀ g, g < 32 → t.bit oSwap g = (s.bit oSwap g || (decide (g < s.nGroups) && bitAt v.toNat g))) ∧
    (∀ g, (t.group g).swapArmed = ((s.group g).swapArmed || (decide (s.cyc ≤ 4079 ∧ g < s.nGroups) && bitAt v.toNat g))) ∧
    (∀ o, o ≠ oSwap → t.reg o = s.reg o) ∧ t.mem = s.mem) ∧
  (∀ (g w : Nat) (v : Word) (s : State), s.Reached → s.build.ok = true → w < 4 →
    (s.nGroups ≤ g → g < 32 → ∃ t : State, exec (.slotShadowWrite g w v) s = .next t ∧ s.Accessed t 0 ∧ t.regs = s.regs) ∧
    (g < s.nGroups → ∃ t : State, exec (.slotShadowWrite g w v) s = .next t ∧ s.Accessed t 0 ∧
      if s.bit oSwap g = true then t.bit oSlotStat 0 = true ∧ ∀ o, o ≠ oSlotStat → t.reg o = s.reg o
      else t.reg (oSlotShd g w) = v ∧ ∀ o, o ≠ oSlotShd g w → t.reg o = s.reg o)) ∧
  (∀ (g w : Nat) (v : Word) (s : State), 32 ≤ g ∨ 4 ≤ w → exec (.slotShadowWrite g w v) s = .next s) ∧
  (∀ (v : Word) (s : State), s.Reached → ∃ t : State, exec (.slotRankWrite v) s = .next t ∧
      t.driven = .regCrd :: .reg 0 :: s.driven ∧
    if (List.range 15).all (fun k => (List.range 15).any fun a => wfld v (4 * a + 3) (4 * a) == k) = true then
      t.reg oRank = v &&& 0x0FFFFFFFFFFFFFFF ∧ t.rankLate = v &&& 0x0FFFFFFFFFFFFFFF ∧
      t.rank = (if s.cyc ≤ 4079 then v &&& 0x0FFFFFFFFFFFFFFF else s.rank) ∧ t.rankNow = s.rankNow ∧ ∀ o, o ≠ oRank →
        t.reg o = s.reg o
    else t.bit oGlbErr 0 = true ∧ t.rank = s.rank ∧ t.rankLate = s.rankLate ∧ ∀ o, o ≠ oGlbErr → t.reg o = s.reg o) ∧
  (∀ (v : Word) (s : State), s.Reached → s.build.ok = true → ∃ t : State, exec (.slotFreeze v) s = .next t ∧ s.Accessed t 0 ∧
    (∀ g, g < s.nGroups → t.bit oFreeze g = bitAt v.toNat g) ∧ ∀ o, o ≠ oFreeze → t.reg o = s.reg o) ∧
  (∀ (p : Nat) (s : State), s.Reached → 4 ≤ p → p ≤ 7 → s.hasPort p = true → ∃ t : State, exec (.flush p) s = .next t ∧
    t.driven = .regCrd :: .reg 0 :: s.driven ∧ t.port p = { s.port p with vpc := [], reqs := (s.port p).reqs.map fun r =>
      { r with barred := (r.rows.flatMap fun w => w.lines.map fun l => l.la) ++ r.barred } } ∧ (∀ q, q ≠ p →
          t.port q = s.port q) ∧ ∀ o, t.reg o = s.reg o) ∧
  (∀ (p : Nat) (s : State), 13 ≤ p → exec (.flush p) s = .next s) ∧
  (∀ s : State, s.Reached → ∃ t : State, exec .elogPop s = .next t ∧ t.elog = s.elog.tail ∧
    t.driven = .regCrd :: .reg 0 :: s.driven ∧ t.regs = s.regs) ∧
  (∀ (b : Bool) (s : State), s.Reached → s.build.ok = true → ∃ t : State, exec (.btAbort b) s = .next t ∧ t.field oBtCfg 17 0 =
      2 ^ 17 + b2n b * 2 ^ 16 ∧ ∀ sl, sl < s.build.slices → (t.slice sl).shaving = none)

/-- O60. WS_BYPASS selects the bypass register and shifts one bit through it. With PORESET_N released every other code but
TM_FUSE_RD acts so on the bits it shifts in. While it is low: WS_EXTEST drives the boundary register, shifts out what it
captured and drives what came in; WS_PRELOAD shifts it out and loads it; TM_MBIST with its start bit begins the test at the
point named; MBIST_COMPLETE ends it, passed if and only if each sub-array's spares cover its failures under the selected
backgrounds, with the image that replaces them; TM_STATUS shifts done, pass and first failing bank out, TM_REPAIR_RD the
image's next entry, 0 after the last; TM_REPAIR_LD takes a soft repair. TM_FUSE_RD shifts the next fuse word out at any time;
after the last it is free. -/
def Obligations.WrapperInstructions : Prop :=
  (∀ s : State, ∃ (b : Bool) (t : State), exec .wsBypass s = .next t ∧ t.driven = .wso (b2n s.wrap.bypass) :: s.driven ∧
    t.wrap = { s.wrap with ir := 0, bypass := b } ∧ { t with driven := s.driven, wrap := s.wrap, free := s.free } = s) ∧
  (∀ s : State, s.pins.poreset = false → ∃ (l : List Bool) (t : State), exec .wsExtest s = .next t ∧
    t.driven = .wso (natBits (s.wrap.bypass :: l.dropLast)) :: s.driven ∧
    t.wrap = { s.wrap with ir := 0, bypass := l.getLastD s.wrap.bypass } ∧
    { t with driven := s.driven, wrap := s.wrap, free := s.free } = s) ∧
  (∀ (l : List Bool) (v : Nat) (s : State), s.pins.poreset = false →
    ∀ q ∈ ([(.wsPreload l, l), (.tmMbist v, lowBits 32 v), (.tmStatus, []), (.tmRepairRd, []),
      (.tmRepairLd v, lowBits 32 v)] : List (Instr × List Bool)),
    ∃ t : State, exec q.1 s = .next t ∧ t.driven = .wso (natBits (s.wrap.bypass :: q.2.dropLast)) :: s.driven ∧
      t.wrap = { s.wrap with ir := 0, bypass := q.2.getLastD s.wrap.bypass } ∧
      { t with driven := s.driven, wrap := s.wrap } = s) ∧
  (∀ s : State, s.pins.poreset = true →
    (∃ (c l : List Bool) (t : State), exec .wsExtest s = .next t ∧
      t.driven = .ext l :: .wso (natBits c) :: .ext s.wrap.boundary :: s.driven ∧
      t.wrap = { s.wrap with ir := 1, boundary := l } ∧ { t with driven := s.driven, wrap := s.wrap, free := s.free } = s) ∧
    (∀ l, ∃ t : State, exec (.wsPreload l) s = .next t ∧ t.driven = .wso (natBits s.wrap.boundary) :: s.driven ∧
      t.wrap = { s.wrap with ir := 2, boundary := l } ∧ { t with driven := s.driven, wrap := s.wrap } = s) ∧
    (∀ v, bitAt v 7 = false → ∃ t : State, exec (.tmMbist v) s = .next t ∧
      t.wrap = { s.wrap with ir := 0x10, mbist := v % 2 ^ 32 } ∧
      { t with wrap := s.wrap } = s) ∧
    (∀ v, bitAt v 7 = true → s.build.ok = true → ∃ t : State, exec (.tmMbist v) s = .next t ∧ t.wrap.running = true ∧
      t.wrap.done = false ∧ t.wrap.pass = false ∧ t.wrap.image = [] ∧ t.wrap.mbist = v % 2 ^ 32 ∧
      (∀ d, 1 ≤ d → d ≤ s.build.slices → t.opOf d = fld v 6 4) ∧ (∀ o, o ≠ oOps → t.reg o = s.reg o)) ∧
    (∃ t : State, exec .tmStatus s = .next t ∧ t.driven =
        .wso (b2n s.wrap.done + 2 * b2n s.wrap.pass + 4 * s.wrap.firstFail) :: s.driven ∧ t.wrap = { s.wrap with ir := 0x11 } ∧
        { t with driven := s.driven, wrap := s.wrap } = s) ∧
    (∃ t : State, exec .tmRepairRd s = .next t ∧ t.driven = .wso (s.wrap.image.getD s.wrap.rdPtr 0) :: s.driven ∧
      t.wrap = { s.wrap with ir := 0x12, rdPtr := s.wrap.rdPtr + 1 } ∧ { t with driven := s.driven, wrap := s.wrap } = s) ∧
    (∀ e, ∃ t : State, exec (.tmRepairLd e) s = .next t ∧
      t.wrap = { s.wrap with ir := 0x13, soft := s.wrap.soft ++ [e % 2 ^ 32] } ∧
      { t with wrap := s.wrap } = s)) ∧
  (∀ (rows cols : List SubFail) (whole : List (Nat × Nat × Nat)) (s : State),
    (s.wrap.running = true → s.pins.poreset = true → (∀ f ∈ rows ++ cols, f.pb < 528 ∧ f.sub < 16) →
      (∀ e ∈ whole, e.2.1 < 528 ∧ e.2.2 < 16) →
      ∃ t : State, exec (.mbistComplete rows cols whole) s = .next t ∧ t.wrap.running = false ∧ t.wrap.done = true ∧
          t.wrap.rdPtr = 0 ∧
      t.wrap.soft = s.wrap.soft ∧
      (t.wrap.pass = true ↔ (∀ e ∈ whole, bitAt s.wrap.mbist e.1 = false) ∧
        ∀ q ∈ ([(0, rows), (1, cols)] : List (Nat × List SubFail)), ∀ f ∈ q.2,
        (s.wrap.failing q.2 q.1 f.pb f.sub).length ≤ (s.wrap.sparesLeft q.1 f.pb f.sub).length) ∧
      (t.wrap.pass = true → ∀ q ∈ ([(0, rows), (1, cols)] : List (Nat × List SubFail)), ∀ f ∈ q.2,
        ∀ a, a ∈ s.wrap.failing q.2 q.1 f.pb f.sub → ∃ i, i ∈ s.wrap.sparesLeft q.1 f.pb f.sub ∧
          2 ^ 31 + f.pb * 2 ^ 21 + f.sub * 2 ^ 17 + q.1 * 2 ^ 16 + i * 2 ^ 14 + a ∈ t.wrap.image) ∧
      { t with wrap := s.wrap } = s) ∧
    (s.wrap.running = false ∨ s.pins.poreset = false → exec (.mbistComplete rows cols whole) s = .next s)) ∧
  (∀ s : State, ∃ (t : State) (w : Nat), exec .tmFuseRd s = .next t ∧ t.driven = .wso w :: s.driven ∧
    t.fuse.rdPtr = s.fuse.rdPtr + 1 ∧
    t.fuse.words = s.fuse.words ∧ (s.fuse.rdPtr < 37 → w = tget 0 s.fuse.words s.fuse.rdPtr) ∧
    (∀ i, i < tget 0 s.fuse.words 0 % 2 ^ 14 → s.fuse.rdPtr = 37 + i → w = tget 0 s.fuse.words (0x100 + i)) ∧
    (s.fuse.rdPtr = 37 + tget 0 s.fuse.words 0 % 2 ^ 14 → w = tget 0 s.fuse.words 0x2100) ∧
    (37 + tget 0 s.fuse.words 0 % 2 ^ 14 < s.fuse.rdPtr → w = (Config.fuseAfterLast s.free).toNat) ∧ t.regs = s.regs ∧
      t.mem = s.mem)
end

