-- ==== Sys2Proof/Laws/Bits.lean ====
section
/-! SUPPORT. Laws of register fields: what a field reads after a field is written. -/
namespace Sys2Proof.Machine

theorem fld_testBit (w hi lo i : Nat) : (fld w hi lo).testBit i = (decide (i < hi + 1 - lo) && w.testBit (lo + i)) := by
  simp [fld, Nat.testBit_mod_two_pow, Nat.testBit_shiftRight]

theorem maskOf_getLsbD (hi lo i : Nat) : (maskOf hi lo).getLsbD i = decide (i < 64 ∧ lo ≤ i ∧ i < lo + (hi + 1 - lo)) := by
  simp only [maskOf, BitVec.getLsbD_ofNat, Nat.testBit_mul_two_pow, Nat.testBit_two_pow_sub_one, ← Bool.decide_and]
  by_cases h1 : i < 64 <;> by_cases h2 : lo ≤ i <;> simp [h1, h2]
  omega

theorem wput_getLsbD (w : Word) (hi lo v i : Nat) :
    (wput w hi lo v).getLsbD i = if i < 64 ∧ lo ≤ i ∧ i < lo + (hi + 1 - lo) then v.testBit (i - lo) else w.getLsbD i := by
  unfold wput
  simp only [BitVec.getLsbD_or, BitVec.getLsbD_and, BitVec.getLsbD_not, maskOf_getLsbD, BitVec.getLsbD_ofNat, Nat.testBit_mul_two_pow]
  by_cases h : i < 64 ∧ lo ≤ i ∧ i < lo + (hi + 1 - lo)
  · simp [h]
  · rw [if_neg h]
    by_cases h1 : i < 64
    · by_cases h2 : lo ≤ i <;> by_cases h3 : i < lo + (hi + 1 - lo) <;> simp [h1, h2, h3]
      exact absurd ⟨h1, h2, h3⟩ h
    · simp [h1, BitVec.getLsbD_of_ge w i (by omega)]

theorem word_testBit (w : Word) (i : Nat) : w.toNat.testBit i = w.getLsbD i := rfl

/-- The field just written, cut to its width. -/
theorem wfld_wput_same (w : Word) (hi lo v : Nat) (h1 : lo ≤ hi) (h2 : hi < 64) :
    wfld (wput w hi lo v) hi lo = v % 2 ^ (hi + 1 - lo) := by
  apply Nat.eq_of_testBit_eq
  intro i
  simp only [wfld, fld_testBit, word_testBit, wput_getLsbD, Nat.testBit_mod_two_pow]
  by_cases h : i < hi + 1 - lo
  · rw [if_pos (by omega)]
    simp [h]
  · simp [h]

/-- A field apart from the one written keeps its value. -/
theorem wfld_wput_other (w : Word) (hi lo v a b : Nat) (h : a < lo ∨ hi < b) : wfld (wput w hi lo v) a b = wfld w a b := by
  apply Nat.eq_of_testBit_eq
  intro i
  simp only [wfld, fld_testBit, word_testBit, wput_getLsbD]
  by_cases hi' : i < a + 1 - b
  · rw [if_neg (by omega)]
  · simp [hi']

/-- A field is below the power of two of its width. -/
theorem fld_lt (w hi lo : Nat) : fld w hi lo < 2 ^ (hi + 1 - lo) := Nat.mod_lt _ (Nat.two_pow_pos _)

/-- A counting field after it rose, at its bound or not. -/
theorem wfld_wbump_same (w : Word) (hi lo n : Nat) (h1 : lo ≤ hi) (h2 : hi < 64) :
    wfld (wbump w hi lo n) hi lo = min (wfld w hi lo + n) (2 ^ (hi + 1 - lo) - 1) := by
  unfold wbump
  rw [wfld_wput_same _ _ _ _ h1 h2, Nat.mod_eq_of_lt]
  have := Nat.two_pow_pos (hi + 1 - lo)
  omega

theorem wfld_wbump_other (w : Word) (hi lo n a b : Nat) (h : a < lo ∨ hi < b) : wfld (wbump w hi lo n) a b = wfld w a b :=
  wfld_wput_other _ _ _ _ _ _ h

end Sys2Proof.Machine
end

