-- ==== Sys2Proof/Laws/Table.lean ====
section
/-! SUPPORT. Laws of the sparse tables: what is read after a write, and that every table operation keeps the keys rising. -/
namespace Sys2Proof.Machine

variable {α : Type}

@[simp] theorem tfind_nil (k : Nat) : tfind ([] : Table α) k = none := rfl

/-- A read of the key just written gives the value written. -/
@[simp] theorem tfind_tset_same (t : Table α) (k : Nat) (v : α) : tfind (tset t k v) k = some v := by
  induction t with
  | nil => simp [tset, tfind]
  | cons e t ih =>
    obtain ⟨j, w⟩ := e
    simp only [tset]
    split
    · simp [tfind]
    · split
      · simp [tfind]
      · simp [tfind, *]

/-- A write leaves every other key alone. -/
theorem tfind_tset_other (t : Table α) (k i : Nat) (v : α) (h : i ≠ k) : tfind (tset t k v) i = tfind t i := by
  induction t with
  | nil => simp [tset, tfind, h]
  | cons e t ih =>
    obtain ⟨j, w⟩ := e
    simp only [tset]
    split
    · subst_vars
      simp [tfind, h]
    · split
      · simp only [tfind]
        split
        · contradiction
        · split
          · rw [if_neg (by omega), if_pos (by omega)]
          · rfl
      · simp only [tfind]
        rw [ih]

/-- A read after a write. -/
theorem tfind_tset (t : Table α) (k i : Nat) (v : α) : tfind (tset t k v) i = if i = k then some v else tfind t i := by
  split
  · subst_vars; simp
  · exact tfind_tset_other t k i v ‹_›

/-- Keys rise: each is below all that follow. -/
theorem trising_cons (e : Nat × α) (t : Table α) : trising (e :: t) = true ↔ (∀ x ∈ t, e.1 < x.1) ∧ trising t = true := by
  induction t generalizing e with
  | nil => simp [trising]
  | cons f t ih =>
    obtain ⟨j, v⟩ := e
    obtain ⟨k, w⟩ := f
    simp only [trising, Bool.and_eq_true, decide_eq_true_eq, List.mem_cons, forall_eq_or_imp]
    constructor
    · rintro ⟨h, r⟩
      exact ⟨⟨h, fun x hx => Nat.lt_trans h (((ih (k, w)).mp r).1 x hx)⟩, r⟩
    · rintro ⟨⟨h, -⟩, r⟩
      exact ⟨h, r⟩

@[simp] theorem trising_nil : trising ([] : Table α) = true := rfl

/-- Keys of a table after a write: the old ones and the one written. -/
theorem mem_tset (t : Table α) (k : Nat) (v : α) (x : Nat × α) (h : x ∈ tset t k v) : x = (k, v) ∨ x ∈ t := by
  induction t with
  | nil => simpa [tset] using h
  | cons e t ih =>
    obtain ⟨j, w⟩ := e
    simp only [tset] at h
    split at h
    · rcases List.mem_cons.mp h with h | h
      · exact .inl h
      · exact .inr (List.mem_cons_of_mem _ h)
    · split at h
      · exact List.mem_cons.mp h
      · rcases List.mem_cons.mp h with h | h
        · exact .inr (h ▸ List.mem_cons_self)
        · exact (ih h).imp id (List.mem_cons_of_mem _)

/-- A write keeps the keys rising. -/
theorem trising_tset (t : Table α) (k : Nat) (v : α) (h : trising t = true) : trising (tset t k v) = true := by
  induction t with
  | nil => rfl
  | cons e t ih =>
    obtain ⟨j, w⟩ := e
    have hh := (trising_cons _ _).mp h
    simp only [tset]
    split
    · subst_vars
      exact (trising_cons _ _).mpr hh
    · split
      · refine (trising_cons _ _).mpr ⟨fun x hx => ?_, h⟩
        rcases List.mem_cons.mp hx with rfl | hx
        · assumption
        · exact Nat.lt_trans ‹_› (hh.1 x hx)
      · refine (trising_cons _ _).mpr ⟨fun x hx => ?_, ih hh.2⟩
        rcases mem_tset t k v x hx with rfl | hx
        · simp only; omega
        · exact hh.1 x hx

/-- Leaving entries out keeps the keys rising. -/
theorem trising_filter (t : Table α) (f : Nat × α → Bool) (h : trising t = true) : trising (t.filter f) = true := by
  induction t with
  | nil => rfl
  | cons e t ih =>
    have hh := (trising_cons _ _).mp h
    rw [List.filter_cons]
    split
    · exact (trising_cons _ _).mpr ⟨fun x hx => hh.1 x (List.mem_filter.mp hx).1, ih hh.2⟩
    · exact ih hh.2

theorem trising_tdel (t : Table α) (k : Nat) (h : trising t = true) : trising (tdel t k) = true := trising_filter _ _ h

theorem trising_tclear (t : Table α) (lo hi : Nat) (h : trising t = true) : trising (tclear t lo hi) = true :=
  trising_filter _ _ h

/-- Nothing is found at a key left out. -/
theorem tfind_filter_out (t : Table α) (f : Nat × α → Bool) (k : Nat) (h : ∀ v, f (k, v) = false) : tfind (t.filter f) k = none := by
  induction t with
  | nil => rfl
  | cons e t ih =>
    obtain ⟨j, w⟩ := e
    rw [List.filter_cons]
    split
    · rename_i hf
      simp only [tfind]
      split
      · subst_vars; simp [h] at hf
      · split
        · rfl
        · exact ih
    · exact ih

@[simp] theorem tfind_tdel_same (t : Table α) (k : Nat) : tfind (tdel t k) k = none := tfind_filter_out t _ k (by simp)

/-- A key below every listed key is not found. -/
theorem tfind_below (t : Table α) (k : Nat) (h : ∀ x ∈ t, k < x.1) : tfind t k = none := by
  cases t with
  | nil => rfl
  | cons e t =>
    obtain ⟨j, w⟩ := e
    have := h _ List.mem_cons_self
    simp only at this
    simp only [tfind]
    rw [if_neg (by omega), if_pos this]

/-- Leaving other entries out changes nothing at a key, where the keys rise. -/
theorem tfind_filter_in (t : Table α) (f : Nat × α → Bool) (k : Nat) (hr : trising t = true) (h : ∀ v, f (k, v) = true) :
    tfind (t.filter f) k = tfind t k := by
  induction t with
  | nil => rfl
  | cons e t ih =>
    obtain ⟨j, w⟩ := e
    have hh := (trising_cons _ _).mp hr
    rw [List.filter_cons]
    split
    · simp only [tfind]
      rw [ih hh.2]
    · rename_i hf
      rw [ih hh.2]
      simp only [tfind]
      split
      · subst_vars; simp [h] at hf
      · split
        · rename_i hlt
          exact tfind_below t k fun x hx => Nat.lt_trans hlt (hh.1 x hx)
        · rfl

theorem tfind_tdel_other (t : Table α) (k i : Nat) (hr : trising t = true) (h : i ≠ k) : tfind (tdel t k) i = tfind t i :=
  tfind_filter_in t _ i hr (by simp [h])

theorem tfind_tclear_other (t : Table α) (lo hi i : Nat) (hr : trising t = true) (h : i < lo ∨ hi ≤ i) :
    tfind (tclear t lo hi) i = tfind t i :=
  tfind_filter_in t _ i hr (by simp; exact fun _ => h)

theorem tfind_tclear_in (t : Table α) (lo hi i : Nat) (h1 : lo ≤ i) (h2 : i < hi) : tfind (tclear t lo hi) i = none :=
  tfind_filter_out t _ i (by simp; omega)

end Sys2Proof.Machine
end

