-- ==== Sys2Proof/Laws/Memory.lean ====
section
/-! SUPPORT. Laws of the two memories: each operation keeps the canonical form; a byte stored is read back, every other byte
is left alone. -/
namespace Sys2Proof.Machine

theorem Memory.wf_iff (m : List Host.Cell) :
    Memory.wf m = true ↔ trising m = true ∧ ∀ c ∈ m, ¬ (c.1 % 256 = 148 ∧ c.2 = 0) := by
  simp [Memory.wf, Decidable.imp_iff_not_or]

@[simp] theorem Memory.wf_nil : Memory.wf [] = true := rfl

/-- Storing a byte keeps the canonical form. -/
theorem Memory.wf_putCell (m : List Host.Cell) (a : Nat) (b : Byte) (h : Memory.wf m = true) : Memory.wf (putCell m a b) = true := by
  rw [Memory.wf_iff] at *
  unfold putCell
  split
  · exact ⟨trising_tdel m a h.1, fun c hc => h.2 c (List.mem_filter.mp hc).1⟩
  · rename_i hn
    refine ⟨trising_tset m a b h.1, fun c hc => ?_⟩
    rcases mem_tset m a b c hc with rfl | hc
    · exact hn
    · exact h.2 c hc

/-- Storing a run of bytes keeps the canonical form. -/
theorem Memory.wf_writeRun (m : List Host.Cell) (a : Nat) (bs : List Byte) (h : Memory.wf m = true) :
    Memory.wf (writeRun m a bs) = true := by
  induction bs generalizing m a with
  | nil => exact h
  | cons b bs ih => exact ih _ _ (Memory.wf_putCell m a b h)

/-- Switching arrays off keeps the canonical form. -/
theorem Memory.wf_tclear (m : List Host.Cell) (lo hi : Nat) (h : Memory.wf m = true) : Memory.wf (tclear m lo hi) = true := by
  rw [Memory.wf_iff] at *
  exact ⟨trising_tclear m lo hi h.1, fun c hc => h.2 c (List.mem_filter.mp hc).1⟩

/-- A byte stored is what is then listed; the flag byte 0 is not listed. -/
theorem tfind_putCell_same (m : List Host.Cell) (a : Nat) (b : Byte) :
    tfind (putCell m a b) a = if a % 256 = 148 ∧ b = 0 then none else some b := by
  unfold putCell
  split <;> simp

/-- Storing a byte leaves every other address alone. -/
theorem tfind_putCell_other (m : List Host.Cell) (a i : Nat) (b : Byte) (hm : Memory.wf m = true) (h : i ≠ a) :
    tfind (putCell m a b) i = tfind m i := by
  unfold putCell
  split
  · exact tfind_tdel_other m a i ((Memory.wf_iff m).mp hm).1 h
  · exact tfind_tset_other m a i b h

/-- Storing a run leaves every address outside it alone. -/
theorem tfind_writeRun_other (m : List Host.Cell) (a i : Nat) (bs : List Byte) (hm : Memory.wf m = true)
    (h : i < a ∨ a + bs.length ≤ i) : tfind (writeRun m a bs) i = tfind m i := by
  induction bs generalizing m a with
  | nil => rfl
  | cons b bs ih =>
    simp only [List.length_cons] at h
    simp only [writeRun]
    rw [ih _ _ (Memory.wf_putCell m a b hm) (by omega), tfind_putCell_other m a i b hm (by omega)]

end Sys2Proof.Machine
end

