-- ==== Sys2Proof/Laws/State.lean ====
section
/-! SUPPORT. The updates of the state, field by field: what each leaves alone (true by definition), and what is read back
after it. -/
namespace Sys2Proof.Machine

variable (s : State)

@[simp] theorem State.setReg_pending (o : Nat) (v : Word) : (s.setReg o v).pending = s.pending := rfl
@[simp] theorem State.setReg_build (o : Nat) (v : Word) : (s.setReg o v).build = s.build := rfl
@[simp] theorem State.setReg_iid (o : Nat) (v : Word) : (s.setReg o v).iid = s.iid := rfl
@[simp] theorem State.setReg_free (o : Nat) (v : Word) : (s.setReg o v).free = s.free := rfl
@[simp] theorem State.setReg_driven (o : Nat) (v : Word) : (s.setReg o v).driven = s.driven := rfl
@[simp] theorem State.setReg_uid (o : Nat) (v : Word) : (s.setReg o v).uid = s.uid := rfl
@[simp] theorem State.setReg_turn (o : Nat) (v : Word) : (s.setReg o v).turn = s.turn := rfl
@[simp] theorem State.setReg_cyc (o : Nat) (v : Word) : (s.setReg o v).cyc = s.cyc := rfl
@[simp] theorem State.setReg_ftime (o : Nat) (v : Word) : (s.setReg o v).ftime = s.ftime := rfl
@[simp] theorem State.setReg_regs (o : Nat) (v : Word) : (s.setReg o v).regs = tset s.regs o v := rfl
@[simp] theorem State.setReg_stage (o : Nat) (v : Word) : (s.setReg o v).stage = s.stage := rfl
@[simp] theorem State.setReg_rankNow (o : Nat) (v : Word) : (s.setReg o v).rankNow = s.rankNow := rfl
@[simp] theorem State.setReg_rank (o : Nat) (v : Word) : (s.setReg o v).rank = s.rank := rfl
@[simp] theorem State.setReg_rankLate (o : Nat) (v : Word) : (s.setReg o v).rankLate = s.rankLate := rfl
@[simp] theorem State.setReg_mem (o : Nat) (v : Word) : (s.setReg o v).mem = s.mem := rfl
@[simp] theorem State.setReg_save (o : Nat) (v : Word) : (s.setReg o v).save = s.save := rfl
@[simp] theorem State.setReg_powerUps (o : Nat) (v : Word) : (s.setReg o v).powerUps = s.powerUps := rfl
@[simp] theorem State.setReg_ports (o : Nat) (v : Word) : (s.setReg o v).ports = s.ports := rfl
@[simp] theorem State.setReg_groups (o : Nat) (v : Word) : (s.setReg o v).groups = s.groups := rfl
@[simp] theorem State.setReg_slices (o : Nat) (v : Word) : (s.setReg o v).slices = s.slices := rfl
@[simp] theorem State.setReg_counters (o : Nat) (v : Word) : (s.setReg o v).counters = s.counters := rfl
@[simp] theorem State.setReg_flags (o : Nat) (v : Word) : (s.setReg o v).flags = s.flags := rfl
@[simp] theorem State.setReg_bound (o : Nat) (v : Word) : (s.setReg o v).bound = s.bound := rfl
@[simp] theorem State.setReg_lastUse (o : Nat) (v : Word) : (s.setReg o v).lastUse = s.lastUse := rfl
@[simp] theorem State.setReg_useClock (o : Nat) (v : Word) : (s.setReg o v).useClock = s.useClock := rfl
@[simp] theorem State.setReg_waiters (o : Nat) (v : Word) : (s.setReg o v).waiters = s.waiters := rfl
@[simp] theorem State.setReg_timedQ (o : Nat) (v : Word) : (s.setReg o v).timedQ = s.timedQ := rfl
@[simp] theorem State.setReg_marks (o : Nat) (v : Word) : (s.setReg o v).marks = s.marks := rfl
@[simp] theorem State.setReg_filters (o : Nat) (v : Word) : (s.setReg o v).filters = s.filters := rfl
@[simp] theorem State.setReg_ctxStall (o : Nat) (v : Word) : (s.setReg o v).ctxStall = s.ctxStall := rfl
@[simp] theorem State.setReg_ctxMoved (o : Nat) (v : Word) : (s.setReg o v).ctxMoved = s.ctxMoved := rfl
@[simp] theorem State.setReg_elog (o : Nat) (v : Word) : (s.setReg o v).elog = s.elog := rfl
@[simp] theorem State.setReg_rp (o : Nat) (v : Word) : (s.setReg o v).rp = s.rp := rfl
@[simp] theorem State.setReg_tp (o : Nat) (v : Word) : (s.setReg o v).tp = s.tp := rfl
@[simp] theorem State.setReg_pw (o : Nat) (v : Word) : (s.setReg o v).pw = s.pw := rfl
@[simp] theorem State.setReg_fw (o : Nat) (v : Word) : (s.setReg o v).fw = s.fw := rfl
@[simp] theorem State.setReg_fuse (o : Nat) (v : Word) : (s.setReg o v).fuse = s.fuse := rfl
@[simp] theorem State.setReg_wrap (o : Nat) (v : Word) : (s.setReg o v).wrap = s.wrap := rfl
@[simp] theorem State.setReg_pins (o : Nat) (v : Word) : (s.setReg o v).pins = s.pins := rfl
@[simp] theorem State.setReg_port (o : Nat) (v : Word) (x : Nat) : (s.setReg o v).port x = s.port x := rfl
@[simp] theorem State.setReg_group (o : Nat) (v : Word) (x : Nat) : (s.setReg o v).group x = s.group x := rfl
@[simp] theorem State.setReg_slice (o : Nat) (v : Word) (x : Nat) : (s.setReg o v).slice x = s.slice x := rfl
@[simp] theorem State.setReg_dom (o : Nat) (v : Word) (x : Nat) : (s.setReg o v).dom x = s.dom x := rfl
@[simp] theorem State.setReg_ctr (o : Nat) (v : Word) (x : Nat) : (s.setReg o v).ctr x = s.ctr x := rfl
@[simp] theorem State.setReg_flg (o : Nat) (v : Word) (x : Nat) : (s.setReg o v).flg x = s.flg x := rfl

@[simp] theorem State.setFld_pending (o hi lo v : Nat) : (s.setFld o hi lo v).pending = s.pending := rfl
@[simp] theorem State.setFld_build (o hi lo v : Nat) : (s.setFld o hi lo v).build = s.build := rfl
@[simp] theorem State.setFld_iid (o hi lo v : Nat) : (s.setFld o hi lo v).iid = s.iid := rfl
@[simp] theorem State.setFld_free (o hi lo v : Nat) : (s.setFld o hi lo v).free = s.free := rfl
@[simp] theorem State.setFld_driven (o hi lo v : Nat) : (s.setFld o hi lo v).driven = s.driven := rfl
@[simp] theorem State.setFld_uid (o hi lo v : Nat) : (s.setFld o hi lo v).uid = s.uid := rfl
@[simp] theorem State.setFld_turn (o hi lo v : Nat) : (s.setFld o hi lo v).turn = s.turn := rfl
@[simp] theorem State.setFld_cyc (o hi lo v : Nat) : (s.setFld o hi lo v).cyc = s.cyc := rfl
@[simp] theorem State.setFld_ftime (o hi lo v : Nat) : (s.setFld o hi lo v).ftime = s.ftime := rfl
@[simp] theorem State.setFld_stage (o hi lo v : Nat) : (s.setFld o hi lo v).stage = s.stage := rfl
@[simp] theorem State.setFld_rankNow (o hi lo v : Nat) : (s.setFld o hi lo v).rankNow = s.rankNow := rfl
@[simp] theorem State.setFld_rank (o hi lo v : Nat) : (s.setFld o hi lo v).rank = s.rank := rfl
@[simp] theorem State.setFld_rankLate (o hi lo v : Nat) : (s.setFld o hi lo v).rankLate = s.rankLate := rfl
@[simp] theorem State.setFld_mem (o hi lo v : Nat) : (s.setFld o hi lo v).mem = s.mem := rfl
@[simp] theorem State.setFld_save (o hi lo v : Nat) : (s.setFld o hi lo v).save = s.save := rfl
@[simp] theorem State.setFld_powerUps (o hi lo v : Nat) : (s.setFld o hi lo v).powerUps = s.powerUps := rfl
@[simp] theorem State.setFld_ports (o hi lo v : Nat) : (s.setFld o hi lo v).ports = s.ports := rfl
@[simp] theorem State.setFld_groups (o hi lo v : Nat) : (s.setFld o hi lo v).groups = s.groups := rfl
@[simp] theorem State.setFld_slices (o hi lo v : Nat) : (s.setFld o hi lo v).slices = s.slices := rfl
@[simp] theorem State.setFld_counters (o hi lo v : Nat) : (s.setFld o hi lo v).counters = s.counters := rfl
@[simp] theorem State.setFld_flags (o hi lo v : Nat) : (s.setFld o hi lo v).flags = s.flags := rfl
@[simp] theorem State.setFld_bound (o hi lo v : Nat) : (s.setFld o hi lo v).bound = s.bound := rfl
@[simp] theorem State.setFld_lastUse (o hi lo v : Nat) : (s.setFld o hi lo v).lastUse = s.lastUse := rfl
@[simp] theorem State.setFld_useClock (o hi lo v : Nat) : (s.setFld o hi lo v).useClock = s.useClock := rfl
@[simp] theorem State.setFld_waiters (o hi lo v : Nat) : (s.setFld o hi lo v).waiters = s.waiters := rfl
@[simp] theorem State.setFld_timedQ (o hi lo v : Nat) : (s.setFld o hi lo v).timedQ = s.timedQ := rfl
@[simp] theorem State.setFld_marks (o hi lo v : Nat) : (s.setFld o hi lo v).marks = s.marks := rfl
@[simp] theorem State.setFld_filters (o hi lo v : Nat) : (s.setFld o hi lo v).filters = s.filters := rfl
@[simp] theorem State.setFld_ctxStall (o hi lo v : Nat) : (s.setFld o hi lo v).ctxStall = s.ctxStall := rfl
@[simp] theorem State.setFld_ctxMoved (o hi lo v : Nat) : (s.setFld o hi lo v).ctxMoved = s.ctxMoved := rfl
@[simp] theorem State.setFld_elog (o hi lo v : Nat) : (s.setFld o hi lo v).elog = s.elog := rfl
@[simp] theorem State.setFld_rp (o hi lo v : Nat) : (s.setFld o hi lo v).rp = s.rp := rfl
@[simp] theorem State.setFld_tp (o hi lo v : Nat) : (s.setFld o hi lo v).tp = s.tp := rfl
@[simp] theorem State.setFld_pw (o hi lo v : Nat) : (s.setFld o hi lo v).pw = s.pw := rfl
@[simp] theorem State.setFld_fw (o hi lo v : Nat) : (s.setFld o hi lo v).fw = s.fw := rfl
@[simp] theorem State.setFld_fuse (o hi lo v : Nat) : (s.setFld o hi lo v).fuse = s.fuse := rfl
@[simp] theorem State.setFld_wrap (o hi lo v : Nat) : (s.setFld o hi lo v).wrap = s.wrap := rfl
@[simp] theorem State.setFld_pins (o hi lo v : Nat) : (s.setFld o hi lo v).pins = s.pins := rfl
@[simp] theorem State.setFld_port (o hi lo v : Nat) (x : Nat) : (s.setFld o hi lo v).port x = s.port x := rfl
@[simp] theorem State.setFld_group (o hi lo v : Nat) (x : Nat) : (s.setFld o hi lo v).group x = s.group x := rfl
@[simp] theorem State.setFld_slice (o hi lo v : Nat) (x : Nat) : (s.setFld o hi lo v).slice x = s.slice x := rfl
@[simp] theorem State.setFld_dom (o hi lo v : Nat) (x : Nat) : (s.setFld o hi lo v).dom x = s.dom x := rfl
@[simp] theorem State.setFld_ctr (o hi lo v : Nat) (x : Nat) : (s.setFld o hi lo v).ctr x = s.ctr x := rfl
@[simp] theorem State.setFld_flg (o hi lo v : Nat) (x : Nat) : (s.setFld o hi lo v).flg x = s.flg x := rfl

@[simp] theorem State.setBit_pending (o i : Nat) : (s.setBit o i).pending = s.pending := rfl
@[simp] theorem State.setBit_build (o i : Nat) : (s.setBit o i).build = s.build := rfl
@[simp] theorem State.setBit_iid (o i : Nat) : (s.setBit o i).iid = s.iid := rfl
@[simp] theorem State.setBit_free (o i : Nat) : (s.setBit o i).free = s.free := rfl
@[simp] theorem State.setBit_driven (o i : Nat) : (s.setBit o i).driven = s.driven := rfl
@[simp] theorem State.setBit_uid (o i : Nat) : (s.setBit o i).uid = s.uid := rfl
@[simp] theorem State.setBit_turn (o i : Nat) : (s.setBit o i).turn = s.turn := rfl
@[simp] theorem State.setBit_cyc (o i : Nat) : (s.setBit o i).cyc = s.cyc := rfl
@[simp] theorem State.setBit_ftime (o i : Nat) : (s.setBit o i).ftime = s.ftime := rfl
@[simp] theorem State.setBit_stage (o i : Nat) : (s.setBit o i).stage = s.stage := rfl
@[simp] theorem State.setBit_rankNow (o i : Nat) : (s.setBit o i).rankNow = s.rankNow := rfl
@[simp] theorem State.setBit_rank (o i : Nat) : (s.setBit o i).rank = s.rank := rfl
@[simp] theorem State.setBit_rankLate (o i : Nat) : (s.setBit o i).rankLate = s.rankLate := rfl
@[simp] theorem State.setBit_mem (o i : Nat) : (s.setBit o i).mem = s.mem := rfl
@[simp] theorem State.setBit_save (o i : Nat) : (s.setBit o i).save = s.save := rfl
@[simp] theorem State.setBit_powerUps (o i : Nat) : (s.setBit o i).powerUps = s.powerUps := rfl
@[simp] theorem State.setBit_ports (o i : Nat) : (s.setBit o i).ports = s.ports := rfl
@[simp] theorem State.setBit_groups (o i : Nat) : (s.setBit o i).groups = s.groups := rfl
@[simp] theorem State.setBit_slices (o i : Nat) : (s.setBit o i).slices = s.slices := rfl
@[simp] theorem State.setBit_counters (o i : Nat) : (s.setBit o i).counters = s.counters := rfl
@[simp] theorem State.setBit_flags (o i : Nat) : (s.setBit o i).flags = s.flags := rfl
@[simp] theorem State.setBit_bound (o i : Nat) : (s.setBit o i).bound = s.bound := rfl
@[simp] theorem State.setBit_lastUse (o i : Nat) : (s.setBit o i).lastUse = s.lastUse := rfl
@[simp] theorem State.setBit_useClock (o i : Nat) : (s.setBit o i).useClock = s.useClock := rfl
@[simp] theorem State.setBit_waiters (o i : Nat) : (s.setBit o i).waiters = s.waiters := rfl
@[simp] theorem State.setBit_timedQ (o i : Nat) : (s.setBit o i).timedQ = s.timedQ := rfl
@[simp] theorem State.setBit_marks (o i : Nat) : (s.setBit o i).marks = s.marks := rfl
@[simp] theorem State.setBit_filters (o i : Nat) : (s.setBit o i).filters = s.filters := rfl
@[simp] theorem State.setBit_ctxStall (o i : Nat) : (s.setBit o i).ctxStall = s.ctxStall := rfl
@[simp] theorem State.setBit_ctxMoved (o i : Nat) : (s.setBit o i).ctxMoved = s.ctxMoved := rfl
@[simp] theorem State.setBit_elog (o i : Nat) : (s.setBit o i).elog = s.elog := rfl
@[simp] theorem State.setBit_rp (o i : Nat) : (s.setBit o i).rp = s.rp := rfl
@[simp] theorem State.setBit_tp (o i : Nat) : (s.setBit o i).tp = s.tp := rfl
@[simp] theorem State.setBit_pw (o i : Nat) : (s.setBit o i).pw = s.pw := rfl
@[simp] theorem State.setBit_fw (o i : Nat) : (s.setBit o i).fw = s.fw := rfl
@[simp] theorem State.setBit_fuse (o i : Nat) : (s.setBit o i).fuse = s.fuse := rfl
@[simp] theorem State.setBit_wrap (o i : Nat) : (s.setBit o i).wrap = s.wrap := rfl
@[simp] theorem State.setBit_pins (o i : Nat) : (s.setBit o i).pins = s.pins := rfl
@[simp] theorem State.setBit_port (o i : Nat) (x : Nat) : (s.setBit o i).port x = s.port x := rfl
@[simp] theorem State.setBit_group (o i : Nat) (x : Nat) : (s.setBit o i).group x = s.group x := rfl
@[simp] theorem State.setBit_slice (o i : Nat) (x : Nat) : (s.setBit o i).slice x = s.slice x := rfl
@[simp] theorem State.setBit_dom (o i : Nat) (x : Nat) : (s.setBit o i).dom x = s.dom x := rfl
@[simp] theorem State.setBit_ctr (o i : Nat) (x : Nat) : (s.setBit o i).ctr x = s.ctr x := rfl
@[simp] theorem State.setBit_flg (o i : Nat) (x : Nat) : (s.setBit o i).flg x = s.flg x := rfl

@[simp] theorem State.bump_pending (o hi lo n : Nat) : (s.bump o hi lo n).pending = s.pending := rfl
@[simp] theorem State.bump_build (o hi lo n : Nat) : (s.bump o hi lo n).build = s.build := rfl
@[simp] theorem State.bump_iid (o hi lo n : Nat) : (s.bump o hi lo n).iid = s.iid := rfl
@[simp] theorem State.bump_free (o hi lo n : Nat) : (s.bump o hi lo n).free = s.free := rfl
@[simp] theorem State.bump_driven (o hi lo n : Nat) : (s.bump o hi lo n).driven = s.driven := rfl
@[simp] theorem State.bump_uid (o hi lo n : Nat) : (s.bump o hi lo n).uid = s.uid := rfl
@[simp] theorem State.bump_turn (o hi lo n : Nat) : (s.bump o hi lo n).turn = s.turn := rfl
@[simp] theorem State.bump_cyc (o hi lo n : Nat) : (s.bump o hi lo n).cyc = s.cyc := rfl
@[simp] theorem State.bump_ftime (o hi lo n : Nat) : (s.bump o hi lo n).ftime = s.ftime := rfl
@[simp] theorem State.bump_stage (o hi lo n : Nat) : (s.bump o hi lo n).stage = s.stage := rfl
@[simp] theorem State.bump_rankNow (o hi lo n : Nat) : (s.bump o hi lo n).rankNow = s.rankNow := rfl
@[simp] theorem State.bump_rank (o hi lo n : Nat) : (s.bump o hi lo n).rank = s.rank := rfl
@[simp] theorem State.bump_rankLate (o hi lo n : Nat) : (s.bump o hi lo n).rankLate = s.rankLate := rfl
@[simp] theorem State.bump_mem (o hi lo n : Nat) : (s.bump o hi lo n).mem = s.mem := rfl
@[simp] theorem State.bump_save (o hi lo n : Nat) : (s.bump o hi lo n).save = s.save := rfl
@[simp] theorem State.bump_powerUps (o hi lo n : Nat) : (s.bump o hi lo n).powerUps = s.powerUps := rfl
@[simp] theorem State.bump_ports (o hi lo n : Nat) : (s.bump o hi lo n).ports = s.ports := rfl
@[simp] theorem State.bump_groups (o hi lo n : Nat) : (s.bump o hi lo n).groups = s.groups := rfl
@[simp] theorem State.bump_slices (o hi lo n : Nat) : (s.bump o hi lo n).slices = s.slices := rfl
@[simp] theorem State.bump_counters (o hi lo n : Nat) : (s.bump o hi lo n).counters = s.counters := rfl
@[simp] theorem State.bump_flags (o hi lo n : Nat) : (s.bump o hi lo n).flags = s.flags := rfl
@[simp] theorem State.bump_bound (o hi lo n : Nat) : (s.bump o hi lo n).bound = s.bound := rfl
@[simp] theorem State.bump_lastUse (o hi lo n : Nat) : (s.bump o hi lo n).lastUse = s.lastUse := rfl
@[simp] theorem State.bump_useClock (o hi lo n : Nat) : (s.bump o hi lo n).useClock = s.useClock := rfl
@[simp] theorem State.bump_waiters (o hi lo n : Nat) : (s.bump o hi lo n).waiters = s.waiters := rfl
@[simp] theorem State.bump_timedQ (o hi lo n : Nat) : (s.bump o hi lo n).timedQ = s.timedQ := rfl
@[simp] theorem State.bump_marks (o hi lo n : Nat) : (s.bump o hi lo n).marks = s.marks := rfl
@[simp] theorem State.bump_filters (o hi lo n : Nat) : (s.bump o hi lo n).filters = s.filters := rfl
@[simp] theorem State.bump_ctxStall (o hi lo n : Nat) : (s.bump o hi lo n).ctxStall = s.ctxStall := rfl
@[simp] theorem State.bump_ctxMoved (o hi lo n : Nat) : (s.bump o hi lo n).ctxMoved = s.ctxMoved := rfl
@[simp] theorem State.bump_elog (o hi lo n : Nat) : (s.bump o hi lo n).elog = s.elog := rfl
@[simp] theorem State.bump_rp (o hi lo n : Nat) : (s.bump o hi lo n).rp = s.rp := rfl
@[simp] theorem State.bump_tp (o hi lo n : Nat) : (s.bump o hi lo n).tp = s.tp := rfl
@[simp] theorem State.bump_pw (o hi lo n : Nat) : (s.bump o hi lo n).pw = s.pw := rfl
@[simp] theorem State.bump_fw (o hi lo n : Nat) : (s.bump o hi lo n).fw = s.fw := rfl
@[simp] theorem State.bump_fuse (o hi lo n : Nat) : (s.bump o hi lo n).fuse = s.fuse := rfl
@[simp] theorem State.bump_wrap (o hi lo n : Nat) : (s.bump o hi lo n).wrap = s.wrap := rfl
@[simp] theorem State.bump_pins (o hi lo n : Nat) : (s.bump o hi lo n).pins = s.pins := rfl
@[simp] theorem State.bump_port (o hi lo n : Nat) (x : Nat) : (s.bump o hi lo n).port x = s.port x := rfl
@[simp] theorem State.bump_group (o hi lo n : Nat) (x : Nat) : (s.bump o hi lo n).group x = s.group x := rfl
@[simp] theorem State.bump_slice (o hi lo n : Nat) (x : Nat) : (s.bump o hi lo n).slice x = s.slice x := rfl
@[simp] theorem State.bump_dom (o hi lo n : Nat) (x : Nat) : (s.bump o hi lo n).dom x = s.dom x := rfl
@[simp] theorem State.bump_ctr (o hi lo n : Nat) (x : Nat) : (s.bump o hi lo n).ctr x = s.ctr x := rfl
@[simp] theorem State.bump_flg (o hi lo n : Nat) (x : Nat) : (s.bump o hi lo n).flg x = s.flg x := rfl

@[simp] theorem State.raise_pending (o hi lo v : Nat) : (s.raise o hi lo v).pending = s.pending := by unfold State.raise; dsimp only; split <;> rfl
@[simp] theorem State.raise_build (o hi lo v : Nat) : (s.raise o hi lo v).build = s.build := by unfold State.raise; dsimp only; split <;> rfl
@[simp] theorem State.raise_iid (o hi lo v : Nat) : (s.raise o hi lo v).iid = s.iid := by unfold State.raise; dsimp only; split <;> rfl
@[simp] theorem State.raise_free (o hi lo v : Nat) : (s.raise o hi lo v).free = s.free := by unfold State.raise; dsimp only; split <;> rfl
@[simp] theorem State.raise_driven (o hi lo v : Nat) : (s.raise o hi lo v).driven = s.driven := by unfold State.raise; dsimp only; split <;> rfl
@[simp] theorem State.raise_uid (o hi lo v : Nat) : (s.raise o hi lo v).uid = s.uid := by unfold State.raise; dsimp only; split <;> rfl
@[simp] theorem State.raise_turn (o hi lo v : Nat) : (s.raise o hi lo v).turn = s.turn := by unfold State.raise; dsimp only; split <;> rfl
@[simp] theorem State.raise_cyc (o hi lo v : Nat) : (s.raise o hi lo v).cyc = s.cyc := by unfold State.raise; dsimp only; split <;> rfl
@[simp] theorem State.raise_ftime (o hi lo v : Nat) : (s.raise o hi lo v).ftime = s.ftime := by unfold State.raise; dsimp only; split <;> rfl
@[simp] theorem State.raise_stage (o hi lo v : Nat) : (s.raise o hi lo v).stage = s.stage := by unfold State.raise; dsimp only; split <;> rfl
@[simp] theorem State.raise_rankNow (o hi lo v : Nat) : (s.raise o hi lo v).rankNow = s.rankNow := by unfold State.raise; dsimp only; split <;> rfl
@[simp] theorem State.raise_rank (o hi lo v : Nat) : (s.raise o hi lo v).rank = s.rank := by unfold State.raise; dsimp only; split <;> rfl
@[simp] theorem State.raise_rankLate (o hi lo v : Nat) : (s.raise o hi lo v).rankLate = s.rankLate := by unfold State.raise; dsimp only; split <;> rfl
@[simp] theorem State.raise_mem (o hi lo v : Nat) : (s.raise o hi lo v).mem = s.mem := by unfold State.raise; dsimp only; split <;> rfl
@[simp] theorem State.raise_save (o hi lo v : Nat) : (s.raise o hi lo v).save = s.save := by unfold State.raise; dsimp only; split <;> rfl
@[simp] theorem State.raise_powerUps (o hi lo v : Nat) : (s.raise o hi lo v).powerUps = s.powerUps := by unfold State.raise; dsimp only; split <;> rfl
@[simp] theorem State.raise_ports (o hi lo v : Nat) : (s.raise o hi lo v).ports = s.ports := by unfold State.raise; dsimp only; split <;> rfl
@[simp] theorem State.raise_groups (o hi lo v : Nat) : (s.raise o hi lo v).groups = s.groups := by unfold State.raise; dsimp only; split <;> rfl
@[simp] theorem State.raise_slices (o hi lo v : Nat) : (s.raise o hi lo v).slices = s.slices := by unfold State.raise; dsimp only; split <;> rfl
@[simp] theorem State.raise_counters (o hi lo v : Nat) : (s.raise o hi lo v).counters = s.counters := by unfold State.raise; dsimp only; split <;> rfl
@[simp] theorem State.raise_flags (o hi lo v : Nat) : (s.raise o hi lo v).flags = s.flags := by unfold State.raise; dsimp only; split <;> rfl
@[simp] theorem State.raise_bound (o hi lo v : Nat) : (s.raise o hi lo v).bound = s.bound := by unfold State.raise; dsimp only; split <;> rfl
@[simp] theorem State.raise_lastUse (o hi lo v : Nat) : (s.raise o hi lo v).lastUse = s.lastUse := by unfold State.raise; dsimp only; split <;> rfl
@[simp] theorem State.raise_useClock (o hi lo v : Nat) : (s.raise o hi lo v).useClock = s.useClock := by unfold State.raise; dsimp only; split <;> rfl
@[simp] theorem State.raise_waiters (o hi lo v : Nat) : (s.raise o hi lo v).waiters = s.waiters := by unfold State.raise; dsimp only; split <;> rfl
@[simp] theorem State.raise_timedQ (o hi lo v : Nat) : (s.raise o hi lo v).timedQ = s.timedQ := by unfold State.raise; dsimp only; split <;> rfl
@[simp] theorem State.raise_marks (o hi lo v : Nat) : (s.raise o hi lo v).marks = s.marks := by unfold State.raise; dsimp only; split <;> rfl
@[simp] theorem State.raise_filters (o hi lo v : Nat) : (s.raise o hi lo v).filters = s.filters := by unfold State.raise; dsimp only; split <;> rfl
@[simp] theorem State.raise_ctxStall (o hi lo v : Nat) : (s.raise o hi lo v).ctxStall = s.ctxStall := by unfold State.raise; dsimp only; split <;> rfl
@[simp] theorem State.raise_ctxMoved (o hi lo v : Nat) : (s.raise o hi lo v).ctxMoved = s.ctxMoved := by unfold State.raise; dsimp only; split <;> rfl
@[simp] theorem State.raise_elog (o hi lo v : Nat) : (s.raise o hi lo v).elog = s.elog := by unfold State.raise; dsimp only; split <;> rfl
@[simp] theorem State.raise_rp (o hi lo v : Nat) : (s.raise o hi lo v).rp = s.rp := by unfold State.raise; dsimp only; split <;> rfl
@[simp] theorem State.raise_tp (o hi lo v : Nat) : (s.raise o hi lo v).tp = s.tp := by unfold State.raise; dsimp only; split <;> rfl
@[simp] theorem State.raise_pw (o hi lo v : Nat) : (s.raise o hi lo v).pw = s.pw := by unfold State.raise; dsimp only; split <;> rfl
@[simp] theorem State.raise_fw (o hi lo v : Nat) : (s.raise o hi lo v).fw = s.fw := by unfold State.raise; dsimp only; split <;> rfl
@[simp] theorem State.raise_fuse (o hi lo v : Nat) : (s.raise o hi lo v).fuse = s.fuse := by unfold State.raise; dsimp only; split <;> rfl
@[simp] theorem State.raise_wrap (o hi lo v : Nat) : (s.raise o hi lo v).wrap = s.wrap := by unfold State.raise; dsimp only; split <;> rfl
@[simp] theorem State.raise_pins (o hi lo v : Nat) : (s.raise o hi lo v).pins = s.pins := by unfold State.raise; dsimp only; split <;> rfl
@[simp] theorem State.raise_port (o hi lo v : Nat) (x : Nat) : (s.raise o hi lo v).port x = s.port x := by unfold State.raise; dsimp only; split <;> rfl
@[simp] theorem State.raise_group (o hi lo v : Nat) (x : Nat) : (s.raise o hi lo v).group x = s.group x := by unfold State.raise; dsimp only; split <;> rfl
@[simp] theorem State.raise_slice (o hi lo v : Nat) (x : Nat) : (s.raise o hi lo v).slice x = s.slice x := by unfold State.raise; dsimp only; split <;> rfl
@[simp] theorem State.raise_dom (o hi lo v : Nat) (x : Nat) : (s.raise o hi lo v).dom x = s.dom x := by unfold State.raise; dsimp only; split <;> rfl
@[simp] theorem State.raise_ctr (o hi lo v : Nat) (x : Nat) : (s.raise o hi lo v).ctr x = s.ctr x := by unfold State.raise; dsimp only; split <;> rfl
@[simp] theorem State.raise_flg (o hi lo v : Nat) (x : Nat) : (s.raise o hi lo v).flg x = s.flg x := by unfold State.raise; dsimp only; split <;> rfl

@[simp] theorem State.setPort_pending (p : Nat) (q : Port) : (s.setPort p q).pending = s.pending := rfl
@[simp] theorem State.setPort_build (p : Nat) (q : Port) : (s.setPort p q).build = s.build := rfl
@[simp] theorem State.setPort_iid (p : Nat) (q : Port) : (s.setPort p q).iid = s.iid := rfl
@[simp] theorem State.setPort_free (p : Nat) (q : Port) : (s.setPort p q).free = s.free := rfl
@[simp] theorem State.setPort_driven (p : Nat) (q : Port) : (s.setPort p q).driven = s.driven := rfl
@[simp] theorem State.setPort_uid (p : Nat) (q : Port) : (s.setPort p q).uid = s.uid := rfl
@[simp] theorem State.setPort_turn (p : Nat) (q : Port) : (s.setPort p q).turn = s.turn := rfl
@[simp] theorem State.setPort_cyc (p : Nat) (q : Port) : (s.setPort p q).cyc = s.cyc := rfl
@[simp] theorem State.setPort_ftime (p : Nat) (q : Port) : (s.setPort p q).ftime = s.ftime := rfl
@[simp] theorem State.setPort_regs (p : Nat) (q : Port) : (s.setPort p q).regs = s.regs := rfl
@[simp] theorem State.setPort_stage (p : Nat) (q : Port) : (s.setPort p q).stage = s.stage := rfl
@[simp] theorem State.setPort_rankNow (p : Nat) (q : Port) : (s.setPort p q).rankNow = s.rankNow := rfl
@[simp] theorem State.setPort_rank (p : Nat) (q : Port) : (s.setPort p q).rank = s.rank := rfl
@[simp] theorem State.setPort_rankLate (p : Nat) (q : Port) : (s.setPort p q).rankLate = s.rankLate := rfl
@[simp] theorem State.setPort_mem (p : Nat) (q : Port) : (s.setPort p q).mem = s.mem := rfl
@[simp] theorem State.setPort_save (p : Nat) (q : Port) : (s.setPort p q).save = s.save := rfl
@[simp] theorem State.setPort_powerUps (p : Nat) (q : Port) : (s.setPort p q).powerUps = s.powerUps := rfl
@[simp] theorem State.setPort_ports (p : Nat) (q : Port) : (s.setPort p q).ports = tset s.ports p q := rfl
@[simp] theorem State.setPort_groups (p : Nat) (q : Port) : (s.setPort p q).groups = s.groups := rfl
@[simp] theorem State.setPort_slices (p : Nat) (q : Port) : (s.setPort p q).slices = s.slices := rfl
@[simp] theorem State.setPort_counters (p : Nat) (q : Port) : (s.setPort p q).counters = s.counters := rfl
@[simp] theorem State.setPort_flags (p : Nat) (q : Port) : (s.setPort p q).flags = s.flags := rfl
@[simp] theorem State.setPort_bound (p : Nat) (q : Port) : (s.setPort p q).bound = s.bound := rfl
@[simp] theorem State.setPort_lastUse (p : Nat) (q : Port) : (s.setPort p q).lastUse = s.lastUse := rfl
@[simp] theorem State.setPort_useClock (p : Nat) (q : Port) : (s.setPort p q).useClock = s.useClock := rfl
@[simp] theorem State.setPort_waiters (p : Nat) (q : Port) : (s.setPort p q).waiters = s.waiters := rfl
@[simp] theorem State.setPort_timedQ (p : Nat) (q : Port) : (s.setPort p q).timedQ = s.timedQ := rfl
@[simp] theorem State.setPort_marks (p : Nat) (q : Port) : (s.setPort p q).marks = s.marks := rfl
@[simp] theorem State.setPort_filters (p : Nat) (q : Port) : (s.setPort p q).filters = s.filters := rfl
@[simp] theorem State.setPort_ctxStall (p : Nat) (q : Port) : (s.setPort p q).ctxStall = s.ctxStall := rfl
@[simp] theorem State.setPort_ctxMoved (p : Nat) (q : Port) : (s.setPort p q).ctxMoved = s.ctxMoved := rfl
@[simp] theorem State.setPort_elog (p : Nat) (q : Port) : (s.setPort p q).elog = s.elog := rfl
@[simp] theorem State.setPort_rp (p : Nat) (q : Port) : (s.setPort p q).rp = s.rp := rfl
@[simp] theorem State.setPort_tp (p : Nat) (q : Port) : (s.setPort p q).tp = s.tp := rfl
@[simp] theorem State.setPort_pw (p : Nat) (q : Port) : (s.setPort p q).pw = s.pw := rfl
@[simp] theorem State.setPort_fw (p : Nat) (q : Port) : (s.setPort p q).fw = s.fw := rfl
@[simp] theorem State.setPort_fuse (p : Nat) (q : Port) : (s.setPort p q).fuse = s.fuse := rfl
@[simp] theorem State.setPort_wrap (p : Nat) (q : Port) : (s.setPort p q).wrap = s.wrap := rfl
@[simp] theorem State.setPort_pins (p : Nat) (q : Port) : (s.setPort p q).pins = s.pins := rfl
@[simp] theorem State.setPort_reg (p : Nat) (q : Port) (x : Nat) : (s.setPort p q).reg x = s.reg x := rfl
@[simp] theorem State.setPort_field (p : Nat) (q : Port) (x y z : Nat) : (s.setPort p q).field x y z = s.field x y z := rfl
@[simp] theorem State.setPort_bit (p : Nat) (q : Port) (x y : Nat) : (s.setPort p q).bit x y = s.bit x y := rfl
@[simp] theorem State.setPort_tab (p : Nat) (q : Port) (x y z : Nat) : (s.setPort p q).tab x y z = s.tab x y z := rfl
@[simp] theorem State.setPort_group (p : Nat) (q : Port) (x : Nat) : (s.setPort p q).group x = s.group x := rfl
@[simp] theorem State.setPort_slice (p : Nat) (q : Port) (x : Nat) : (s.setPort p q).slice x = s.slice x := rfl
@[simp] theorem State.setPort_dom (p : Nat) (q : Port) (x : Nat) : (s.setPort p q).dom x = s.dom x := rfl
@[simp] theorem State.setPort_ctr (p : Nat) (q : Port) (x : Nat) : (s.setPort p q).ctr x = s.ctr x := rfl
@[simp] theorem State.setPort_flg (p : Nat) (q : Port) (x : Nat) : (s.setPort p q).flg x = s.flg x := rfl

@[simp] theorem State.modPort_pending (p : Nat) (f : Port → Port) : (s.modPort p f).pending = s.pending := rfl
@[simp] theorem State.modPort_build (p : Nat) (f : Port → Port) : (s.modPort p f).build = s.build := rfl
@[simp] theorem State.modPort_iid (p : Nat) (f : Port → Port) : (s.modPort p f).iid = s.iid := rfl
@[simp] theorem State.modPort_free (p : Nat) (f : Port → Port) : (s.modPort p f).free = s.free := rfl
@[simp] theorem State.modPort_driven (p : Nat) (f : Port → Port) : (s.modPort p f).driven = s.driven := rfl
@[simp] theorem State.modPort_uid (p : Nat) (f : Port → Port) : (s.modPort p f).uid = s.uid := rfl
@[simp] theorem State.modPort_turn (p : Nat) (f : Port → Port) : (s.modPort p f).turn = s.turn := rfl
@[simp] theorem State.modPort_cyc (p : Nat) (f : Port → Port) : (s.modPort p f).cyc = s.cyc := rfl
@[simp] theorem State.modPort_ftime (p : Nat) (f : Port → Port) : (s.modPort p f).ftime = s.ftime := rfl
@[simp] theorem State.modPort_regs (p : Nat) (f : Port → Port) : (s.modPort p f).regs = s.regs := rfl
@[simp] theorem State.modPort_stage (p : Nat) (f : Port → Port) : (s.modPort p f).stage = s.stage := rfl
@[simp] theorem State.modPort_rankNow (p : Nat) (f : Port → Port) : (s.modPort p f).rankNow = s.rankNow := rfl
@[simp] theorem State.modPort_rank (p : Nat) (f : Port → Port) : (s.modPort p f).rank = s.rank := rfl
@[simp] theorem State.modPort_rankLate (p : Nat) (f : Port → Port) : (s.modPort p f).rankLate = s.rankLate := rfl
@[simp] theorem State.modPort_mem (p : Nat) (f : Port → Port) : (s.modPort p f).mem = s.mem := rfl
@[simp] theorem State.modPort_save (p : Nat) (f : Port → Port) : (s.modPort p f).save = s.save := rfl
@[simp] theorem State.modPort_powerUps (p : Nat) (f : Port → Port) : (s.modPort p f).powerUps = s.powerUps := rfl
@[simp] theorem State.modPort_groups (p : Nat) (f : Port → Port) : (s.modPort p f).groups = s.groups := rfl
@[simp] theorem State.modPort_slices (p : Nat) (f : Port → Port) : (s.modPort p f).slices = s.slices := rfl
@[simp] theorem State.modPort_counters (p : Nat) (f : Port → Port) : (s.modPort p f).counters = s.counters := rfl
@[simp] theorem State.modPort_flags (p : Nat) (f : Port → Port) : (s.modPort p f).flags = s.flags := rfl
@[simp] theorem State.modPort_bound (p : Nat) (f : Port → Port) : (s.modPort p f).bound = s.bound := rfl
@[simp] theorem State.modPort_lastUse (p : Nat) (f : Port → Port) : (s.modPort p f).lastUse = s.lastUse := rfl
@[simp] theorem State.modPort_useClock (p : Nat) (f : Port → Port) : (s.modPort p f).useClock = s.useClock := rfl
@[simp] theorem State.modPort_waiters (p : Nat) (f : Port → Port) : (s.modPort p f).waiters = s.waiters := rfl
@[simp] theorem State.modPort_timedQ (p : Nat) (f : Port → Port) : (s.modPort p f).timedQ = s.timedQ := rfl
@[simp] theorem State.modPort_marks (p : Nat) (f : Port → Port) : (s.modPort p f).marks = s.marks := rfl
@[simp] theorem State.modPort_filters (p : Nat) (f : Port → Port) : (s.modPort p f).filters = s.filters := rfl
@[simp] theorem State.modPort_ctxStall (p : Nat) (f : Port → Port) : (s.modPort p f).ctxStall = s.ctxStall := rfl
@[simp] theorem State.modPort_ctxMoved (p : Nat) (f : Port → Port) : (s.modPort p f).ctxMoved = s.ctxMoved := rfl
@[simp] theorem State.modPort_elog (p : Nat) (f : Port → Port) : (s.modPort p f).elog = s.elog := rfl
@[simp] theorem State.modPort_rp (p : Nat) (f : Port → Port) : (s.modPort p f).rp = s.rp := rfl
@[simp] theorem State.modPort_tp (p : Nat) (f : Port → Port) : (s.modPort p f).tp = s.tp := rfl
@[simp] theorem State.modPort_pw (p : Nat) (f : Port → Port) : (s.modPort p f).pw = s.pw := rfl
@[simp] theorem State.modPort_fw (p : Nat) (f : Port → Port) : (s.modPort p f).fw = s.fw := rfl
@[simp] theorem State.modPort_fuse (p : Nat) (f : Port → Port) : (s.modPort p f).fuse = s.fuse := rfl
@[simp] theorem State.modPort_wrap (p : Nat) (f : Port → Port) : (s.modPort p f).wrap = s.wrap := rfl
@[simp] theorem State.modPort_pins (p : Nat) (f : Port → Port) : (s.modPort p f).pins = s.pins := rfl
@[simp] theorem State.modPort_reg (p : Nat) (f : Port → Port) (x : Nat) : (s.modPort p f).reg x = s.reg x := rfl
@[simp] theorem State.modPort_field (p : Nat) (f : Port → Port) (x y z : Nat) : (s.modPort p f).field x y z = s.field x y z := rfl
@[simp] theorem State.modPort_bit (p : Nat) (f : Port → Port) (x y : Nat) : (s.modPort p f).bit x y = s.bit x y := rfl
@[simp] theorem State.modPort_tab (p : Nat) (f : Port → Port) (x y z : Nat) : (s.modPort p f).tab x y z = s.tab x y z := rfl
@[simp] theorem State.modPort_group (p : Nat) (f : Port → Port) (x : Nat) : (s.modPort p f).group x = s.group x := rfl
@[simp] theorem State.modPort_slice (p : Nat) (f : Port → Port) (x : Nat) : (s.modPort p f).slice x = s.slice x := rfl
@[simp] theorem State.modPort_dom (p : Nat) (f : Port → Port) (x : Nat) : (s.modPort p f).dom x = s.dom x := rfl
@[simp] theorem State.modPort_ctr (p : Nat) (f : Port → Port) (x : Nat) : (s.modPort p f).ctr x = s.ctr x := rfl
@[simp] theorem State.modPort_flg (p : Nat) (f : Port → Port) (x : Nat) : (s.modPort p f).flg x = s.flg x := rfl

@[simp] theorem State.setGroup_pending (g : Nat) (q : Group) : (s.setGroup g q).pending = s.pending := rfl
@[simp] theorem State.setGroup_build (g : Nat) (q : Group) : (s.setGroup g q).build = s.build := rfl
@[simp] theorem State.setGroup_iid (g : Nat) (q : Group) : (s.setGroup g q).iid = s.iid := rfl
@[simp] theorem State.setGroup_free (g : Nat) (q : Group) : (s.setGroup g q).free = s.free := rfl
@[simp] theorem State.setGroup_driven (g : Nat) (q : Group) : (s.setGroup g q).driven = s.driven := rfl
@[simp] theorem State.setGroup_uid (g : Nat) (q : Group) : (s.setGroup g q).uid = s.uid := rfl
@[simp] theorem State.setGroup_turn (g : Nat) (q : Group) : (s.setGroup g q).turn = s.turn := rfl
@[simp] theorem State.setGroup_cyc (g : Nat) (q : Group) : (s.setGroup g q).cyc = s.cyc := rfl
@[simp] theorem State.setGroup_ftime (g : Nat) (q : Group) : (s.setGroup g q).ftime = s.ftime := rfl
@[simp] theorem State.setGroup_regs (g : Nat) (q : Group) : (s.setGroup g q).regs = s.regs := rfl
@[simp] theorem State.setGroup_stage (g : Nat) (q : Group) : (s.setGroup g q).stage = s.stage := rfl
@[simp] theorem State.setGroup_rankNow (g : Nat) (q : Group) : (s.setGroup g q).rankNow = s.rankNow := rfl
@[simp] theorem State.setGroup_rank (g : Nat) (q : Group) : (s.setGroup g q).rank = s.rank := rfl
@[simp] theorem State.setGroup_rankLate (g : Nat) (q : Group) : (s.setGroup g q).rankLate = s.rankLate := rfl
@[simp] theorem State.setGroup_mem (g : Nat) (q : Group) : (s.setGroup g q).mem = s.mem := rfl
@[simp] theorem State.setGroup_save (g : Nat) (q : Group) : (s.setGroup g q).save = s.save := rfl
@[simp] theorem State.setGroup_powerUps (g : Nat) (q : Group) : (s.setGroup g q).powerUps = s.powerUps := rfl
@[simp] theorem State.setGroup_ports (g : Nat) (q : Group) : (s.setGroup g q).ports = s.ports := rfl
@[simp] theorem State.setGroup_groups (g : Nat) (q : Group) : (s.setGroup g q).groups = tset s.groups g q := rfl
@[simp] theorem State.setGroup_slices (g : Nat) (q : Group) : (s.setGroup g q).slices = s.slices := rfl
@[simp] theorem State.setGroup_counters (g : Nat) (q : Group) : (s.setGroup g q).counters = s.counters := rfl
@[simp] theorem State.setGroup_flags (g : Nat) (q : Group) : (s.setGroup g q).flags = s.flags := rfl
@[simp] theorem State.setGroup_bound (g : Nat) (q : Group) : (s.setGroup g q).bound = s.bound := rfl
@[simp] theorem State.setGroup_lastUse (g : Nat) (q : Group) : (s.setGroup g q).lastUse = s.lastUse := rfl
@[simp] theorem State.setGroup_useClock (g : Nat) (q : Group) : (s.setGroup g q).useClock = s.useClock := rfl
@[simp] theorem State.setGroup_waiters (g : Nat) (q : Group) : (s.setGroup g q).waiters = s.waiters := rfl
@[simp] theorem State.setGroup_timedQ (g : Nat) (q : Group) : (s.setGroup g q).timedQ = s.timedQ := rfl
@[simp] theorem State.setGroup_marks (g : Nat) (q : Group) : (s.setGroup g q).marks = s.marks := rfl
@[simp] theorem State.setGroup_filters (g : Nat) (q : Group) : (s.setGroup g q).filters = s.filters := rfl
@[simp] theorem State.setGroup_ctxStall (g : Nat) (q : Group) : (s.setGroup g q).ctxStall = s.ctxStall := rfl
@[simp] theorem State.setGroup_ctxMoved (g : Nat) (q : Group) : (s.setGroup g q).ctxMoved = s.ctxMoved := rfl
@[simp] theorem State.setGroup_elog (g : Nat) (q : Group) : (s.setGroup g q).elog = s.elog := rfl
@[simp] theorem State.setGroup_rp (g : Nat) (q : Group) : (s.setGroup g q).rp = s.rp := rfl
@[simp] theorem State.setGroup_tp (g : Nat) (q : Group) : (s.setGroup g q).tp = s.tp := rfl
@[simp] theorem State.setGroup_pw (g : Nat) (q : Group) : (s.setGroup g q).pw = s.pw := rfl
@[simp] theorem State.setGroup_fw (g : Nat) (q : Group) : (s.setGroup g q).fw = s.fw := rfl
@[simp] theorem State.setGroup_fuse (g : Nat) (q : Group) : (s.setGroup g q).fuse = s.fuse := rfl
@[simp] theorem State.setGroup_wrap (g : Nat) (q : Group) : (s.setGroup g q).wrap = s.wrap := rfl
@[simp] theorem State.setGroup_pins (g : Nat) (q : Group) : (s.setGroup g q).pins = s.pins := rfl
@[simp] theorem State.setGroup_reg (g : Nat) (q : Group) (x : Nat) : (s.setGroup g q).reg x = s.reg x := rfl
@[simp] theorem State.setGroup_field (g : Nat) (q : Group) (x y z : Nat) : (s.setGroup g q).field x y z = s.field x y z := rfl
@[simp] theorem State.setGroup_bit (g : Nat) (q : Group) (x y : Nat) : (s.setGroup g q).bit x y = s.bit x y := rfl
@[simp] theorem State.setGroup_tab (g : Nat) (q : Group) (x y z : Nat) : (s.setGroup g q).tab x y z = s.tab x y z := rfl
@[simp] theorem State.setGroup_port (g : Nat) (q : Group) (x : Nat) : (s.setGroup g q).port x = s.port x := rfl
@[simp] theorem State.setGroup_slice (g : Nat) (q : Group) (x : Nat) : (s.setGroup g q).slice x = s.slice x := rfl
@[simp] theorem State.setGroup_dom (g : Nat) (q : Group) (x : Nat) : (s.setGroup g q).dom x = s.dom x := rfl
@[simp] theorem State.setGroup_ctr (g : Nat) (q : Group) (x : Nat) : (s.setGroup g q).ctr x = s.ctr x := rfl
@[simp] theorem State.setGroup_flg (g : Nat) (q : Group) (x : Nat) : (s.setGroup g q).flg x = s.flg x := rfl

@[simp] theorem State.modGroup_pending (g : Nat) (f : Group → Group) : (s.modGroup g f).pending = s.pending := rfl
@[simp] theorem State.modGroup_build (g : Nat) (f : Group → Group) : (s.modGroup g f).build = s.build := rfl
@[simp] theorem State.modGroup_iid (g : Nat) (f : Group → Group) : (s.modGroup g f).iid = s.iid := rfl
@[simp] theorem State.modGroup_free (g : Nat) (f : Group → Group) : (s.modGroup g f).free = s.free := rfl
@[simp] theorem State.modGroup_driven (g : Nat) (f : Group → Group) : (s.modGroup g f).driven = s.driven := rfl
@[simp] theorem State.modGroup_uid (g : Nat) (f : Group → Group) : (s.modGroup g f).uid = s.uid := rfl
@[simp] theorem State.modGroup_turn (g : Nat) (f : Group → Group) : (s.modGroup g f).turn = s.turn := rfl
@[simp] theorem State.modGroup_cyc (g : Nat) (f : Group → Group) : (s.modGroup g f).cyc = s.cyc := rfl
@[simp] theorem State.modGroup_ftime (g : Nat) (f : Group → Group) : (s.modGroup g f).ftime = s.ftime := rfl
@[simp] theorem State.modGroup_regs (g : Nat) (f : Group → Group) : (s.modGroup g f).regs = s.regs := rfl
@[simp] theorem State.modGroup_stage (g : Nat) (f : Group → Group) : (s.modGroup g f).stage = s.stage := rfl
@[simp] theorem State.modGroup_rankNow (g : Nat) (f : Group → Group) : (s.modGroup g f).rankNow = s.rankNow := rfl
@[simp] theorem State.modGroup_rank (g : Nat) (f : Group → Group) : (s.modGroup g f).rank = s.rank := rfl
@[simp] theorem State.modGroup_rankLate (g : Nat) (f : Group → Group) : (s.modGroup g f).rankLate = s.rankLate := rfl
@[simp] theorem State.modGroup_mem (g : Nat) (f : Group → Group) : (s.modGroup g f).mem = s.mem := rfl
@[simp] theorem State.modGroup_save (g : Nat) (f : Group → Group) : (s.modGroup g f).save = s.save := rfl
@[simp] theorem State.modGroup_powerUps (g : Nat) (f : Group → Group) : (s.modGroup g f).powerUps = s.powerUps := rfl
@[simp] theorem State.modGroup_ports (g : Nat) (f : Group → Group) : (s.modGroup g f).ports = s.ports := rfl
@[simp] theorem State.modGroup_slices (g : Nat) (f : Group → Group) : (s.modGroup g f).slices = s.slices := rfl
@[simp] theorem State.modGroup_counters (g : Nat) (f : Group → Group) : (s.modGroup g f).counters = s.counters := rfl
@[simp] theorem State.modGroup_flags (g : Nat) (f : Group → Group) : (s.modGroup g f).flags = s.flags := rfl
@[simp] theorem State.modGroup_bound (g : Nat) (f : Group → Group) : (s.modGroup g f).bound = s.bound := rfl
@[simp] theorem State.modGroup_lastUse (g : Nat) (f : Group → Group) : (s.modGroup g f).lastUse = s.lastUse := rfl
@[simp] theorem State.modGroup_useClock (g : Nat) (f : Group → Group) : (s.modGroup g f).useClock = s.useClock := rfl
@[simp] theorem State.modGroup_waiters (g : Nat) (f : Group → Group) : (s.modGroup g f).waiters = s.waiters := rfl
@[simp] theorem State.modGroup_timedQ (g : Nat) (f : Group → Group) : (s.modGroup g f).timedQ = s.timedQ := rfl
@[simp] theorem State.modGroup_marks (g : Nat) (f : Group → Group) : (s.modGroup g f).marks = s.marks := rfl
@[simp] theorem State.modGroup_filters (g : Nat) (f : Group → Group) : (s.modGroup g f).filters = s.filters := rfl
@[simp] theorem State.modGroup_ctxStall (g : Nat) (f : Group → Group) : (s.modGroup g f).ctxStall = s.ctxStall := rfl
@[simp] theorem State.modGroup_ctxMoved (g : Nat) (f : Group → Group) : (s.modGroup g f).ctxMoved = s.ctxMoved := rfl
@[simp] theorem State.modGroup_elog (g : Nat) (f : Group → Group) : (s.modGroup g f).elog = s.elog := rfl
@[simp] theorem State.modGroup_rp (g : Nat) (f : Group → Group) : (s.modGroup g f).rp = s.rp := rfl
@[simp] theorem State.modGroup_tp (g : Nat) (f : Group → Group) : (s.modGroup g f).tp = s.tp := rfl
@[simp] theorem State.modGroup_pw (g : Nat) (f : Group → Group) : (s.modGroup g f).pw = s.pw := rfl
@[simp] theorem State.modGroup_fw (g : Nat) (f : Group → Group) : (s.modGroup g f).fw = s.fw := rfl
@[simp] theorem State.modGroup_fuse (g : Nat) (f : Group → Group) : (s.modGroup g f).fuse = s.fuse := rfl
@[simp] theorem State.modGroup_wrap (g : Nat) (f : Group → Group) : (s.modGroup g f).wrap = s.wrap := rfl
@[simp] theorem State.modGroup_pins (g : Nat) (f : Group → Group) : (s.modGroup g f).pins = s.pins := rfl
@[simp] theorem State.modGroup_reg (g : Nat) (f : Group → Group) (x : Nat) : (s.modGroup g f).reg x = s.reg x := rfl
@[simp] theorem State.modGroup_field (g : Nat) (f : Group → Group) (x y z : Nat) : (s.modGroup g f).field x y z = s.field x y z := rfl
@[simp] theorem State.modGroup_bit (g : Nat) (f : Group → Group) (x y : Nat) : (s.modGroup g f).bit x y = s.bit x y := rfl
@[simp] theorem State.modGroup_tab (g : Nat) (f : Group → Group) (x y z : Nat) : (s.modGroup g f).tab x y z = s.tab x y z := rfl
@[simp] theorem State.modGroup_port (g : Nat) (f : Group → Group) (x : Nat) : (s.modGroup g f).port x = s.port x := rfl
@[simp] theorem State.modGroup_slice (g : Nat) (f : Group → Group) (x : Nat) : (s.modGroup g f).slice x = s.slice x := rfl
@[simp] theorem State.modGroup_dom (g : Nat) (f : Group → Group) (x : Nat) : (s.modGroup g f).dom x = s.dom x := rfl
@[simp] theorem State.modGroup_ctr (g : Nat) (f : Group → Group) (x : Nat) : (s.modGroup g f).ctr x = s.ctr x := rfl
@[simp] theorem State.modGroup_flg (g : Nat) (f : Group → Group) (x : Nat) : (s.modGroup g f).flg x = s.flg x := rfl

@[simp] theorem State.setSlice_pending (i : Nat) (q : Slice) : (s.setSlice i q).pending = s.pending := rfl
@[simp] theorem State.setSlice_build (i : Nat) (q : Slice) : (s.setSlice i q).build = s.build := rfl
@[simp] theorem State.setSlice_iid (i : Nat) (q : Slice) : (s.setSlice i q).iid = s.iid := rfl
@[simp] theorem State.setSlice_free (i : Nat) (q : Slice) : (s.setSlice i q).free = s.free := rfl
@[simp] theorem State.setSlice_driven (i : Nat) (q : Slice) : (s.setSlice i q).driven = s.driven := rfl
@[simp] theorem State.setSlice_uid (i : Nat) (q : Slice) : (s.setSlice i q).uid = s.uid := rfl
@[simp] theorem State.setSlice_turn (i : Nat) (q : Slice) : (s.setSlice i q).turn = s.turn := rfl
@[simp] theorem State.setSlice_cyc (i : Nat) (q : Slice) : (s.setSlice i q).cyc = s.cyc := rfl
@[simp] theorem State.setSlice_ftime (i : Nat) (q : Slice) : (s.setSlice i q).ftime = s.ftime := rfl
@[simp] theorem State.setSlice_regs (i : Nat) (q : Slice) : (s.setSlice i q).regs = s.regs := rfl
@[simp] theorem State.setSlice_stage (i : Nat) (q : Slice) : (s.setSlice i q).stage = s.stage := rfl
@[simp] theorem State.setSlice_rankNow (i : Nat) (q : Slice) : (s.setSlice i q).rankNow = s.rankNow := rfl
@[simp] theorem State.setSlice_rank (i : Nat) (q : Slice) : (s.setSlice i q).rank = s.rank := rfl
@[simp] theorem State.setSlice_rankLate (i : Nat) (q : Slice) : (s.setSlice i q).rankLate = s.rankLate := rfl
@[simp] theorem State.setSlice_mem (i : Nat) (q : Slice) : (s.setSlice i q).mem = s.mem := rfl
@[simp] theorem State.setSlice_save (i : Nat) (q : Slice) : (s.setSlice i q).save = s.save := rfl
@[simp] theorem State.setSlice_powerUps (i : Nat) (q : Slice) : (s.setSlice i q).powerUps = s.powerUps := rfl
@[simp] theorem State.setSlice_ports (i : Nat) (q : Slice) : (s.setSlice i q).ports = s.ports := rfl
@[simp] theorem State.setSlice_groups (i : Nat) (q : Slice) : (s.setSlice i q).groups = s.groups := rfl
@[simp] theorem State.setSlice_slices (i : Nat) (q : Slice) : (s.setSlice i q).slices = tset s.slices i q := rfl
@[simp] theorem State.setSlice_counters (i : Nat) (q : Slice) : (s.setSlice i q).counters = s.counters := rfl
@[simp] theorem State.setSlice_flags (i : Nat) (q : Slice) : (s.setSlice i q).flags = s.flags := rfl
@[simp] theorem State.setSlice_bound (i : Nat) (q : Slice) : (s.setSlice i q).bound = s.bound := rfl
@[simp] theorem State.setSlice_lastUse (i : Nat) (q : Slice) : (s.setSlice i q).lastUse = s.lastUse := rfl
@[simp] theorem State.setSlice_useClock (i : Nat) (q : Slice) : (s.setSlice i q).useClock = s.useClock := rfl
@[simp] theorem State.setSlice_waiters (i : Nat) (q : Slice) : (s.setSlice i q).waiters = s.waiters := rfl
@[simp] theorem State.setSlice_timedQ (i : Nat) (q : Slice) : (s.setSlice i q).timedQ = s.timedQ := rfl
@[simp] theorem State.setSlice_marks (i : Nat) (q : Slice) : (s.setSlice i q).marks = s.marks := rfl
@[simp] theorem State.setSlice_filters (i : Nat) (q : Slice) : (s.setSlice i q).filters = s.filters := rfl
@[simp] theorem State.setSlice_ctxStall (i : Nat) (q : Slice) : (s.setSlice i q).ctxStall = s.ctxStall := rfl
@[simp] theorem State.setSlice_ctxMoved (i : Nat) (q : Slice) : (s.setSlice i q).ctxMoved = s.ctxMoved := rfl
@[simp] theorem State.setSlice_elog (i : Nat) (q : Slice) : (s.setSlice i q).elog = s.elog := rfl
@[simp] theorem State.setSlice_rp (i : Nat) (q : Slice) : (s.setSlice i q).rp = s.rp := rfl
@[simp] theorem State.setSlice_tp (i : Nat) (q : Slice) : (s.setSlice i q).tp = s.tp := rfl
@[simp] theorem State.setSlice_pw (i : Nat) (q : Slice) : (s.setSlice i q).pw = s.pw := rfl
@[simp] theorem State.setSlice_fw (i : Nat) (q : Slice) : (s.setSlice i q).fw = s.fw := rfl
@[simp] theorem State.setSlice_fuse (i : Nat) (q : Slice) : (s.setSlice i q).fuse = s.fuse := rfl
@[simp] theorem State.setSlice_wrap (i : Nat) (q : Slice) : (s.setSlice i q).wrap = s.wrap := rfl
@[simp] theorem State.setSlice_pins (i : Nat) (q : Slice) : (s.setSlice i q).pins = s.pins := rfl
@[simp] theorem State.setSlice_reg (i : Nat) (q : Slice) (x : Nat) : (s.setSlice i q).reg x = s.reg x := rfl
@[simp] theorem State.setSlice_field (i : Nat) (q : Slice) (x y z : Nat) : (s.setSlice i q).field x y z = s.field x y z := rfl
@[simp] theorem State.setSlice_bit (i : Nat) (q : Slice) (x y : Nat) : (s.setSlice i q).bit x y = s.bit x y := rfl
@[simp] theorem State.setSlice_tab (i : Nat) (q : Slice) (x y z : Nat) : (s.setSlice i q).tab x y z = s.tab x y z := rfl
@[simp] theorem State.setSlice_port (i : Nat) (q : Slice) (x : Nat) : (s.setSlice i q).port x = s.port x := rfl
@[simp] theorem State.setSlice_group (i : Nat) (q : Slice) (x : Nat) : (s.setSlice i q).group x = s.group x := rfl
@[simp] theorem State.setSlice_dom (i : Nat) (q : Slice) (x : Nat) : (s.setSlice i q).dom x = s.dom x := rfl
@[simp] theorem State.setSlice_ctr (i : Nat) (q : Slice) (x : Nat) : (s.setSlice i q).ctr x = s.ctr x := rfl
@[simp] theorem State.setSlice_flg (i : Nat) (q : Slice) (x : Nat) : (s.setSlice i q).flg x = s.flg x := rfl

@[simp] theorem State.modSlice_pending (i : Nat) (f : Slice → Slice) : (s.modSlice i f).pending = s.pending := rfl
@[simp] theorem State.modSlice_build (i : Nat) (f : Slice → Slice) : (s.modSlice i f).build = s.build := rfl
@[simp] theorem State.modSlice_iid (i : Nat) (f : Slice → Slice) : (s.modSlice i f).iid = s.iid := rfl
@[simp] theorem State.modSlice_free (i : Nat) (f : Slice → Slice) : (s.modSlice i f).free = s.free := rfl
@[simp] theorem State.modSlice_driven (i : Nat) (f : Slice → Slice) : (s.modSlice i f).driven = s.driven := rfl
@[simp] theorem State.modSlice_uid (i : Nat) (f : Slice → Slice) : (s.modSlice i f).uid = s.uid := rfl
@[simp] theorem State.modSlice_turn (i : Nat) (f : Slice → Slice) : (s.modSlice i f).turn = s.turn := rfl
@[simp] theorem State.modSlice_cyc (i : Nat) (f : Slice → Slice) : (s.modSlice i f).cyc = s.cyc := rfl
@[simp] theorem State.modSlice_ftime (i : Nat) (f : Slice → Slice) : (s.modSlice i f).ftime = s.ftime := rfl
@[simp] theorem State.modSlice_regs (i : Nat) (f : Slice → Slice) : (s.modSlice i f).regs = s.regs := rfl
@[simp] theorem State.modSlice_stage (i : Nat) (f : Slice → Slice) : (s.modSlice i f).stage = s.stage := rfl
@[simp] theorem State.modSlice_rankNow (i : Nat) (f : Slice → Slice) : (s.modSlice i f).rankNow = s.rankNow := rfl
@[simp] theorem State.modSlice_rank (i : Nat) (f : Slice → Slice) : (s.modSlice i f).rank = s.rank := rfl
@[simp] theorem State.modSlice_rankLate (i : Nat) (f : Slice → Slice) : (s.modSlice i f).rankLate = s.rankLate := rfl
@[simp] theorem State.modSlice_mem (i : Nat) (f : Slice → Slice) : (s.modSlice i f).mem = s.mem := rfl
@[simp] theorem State.modSlice_save (i : Nat) (f : Slice → Slice) : (s.modSlice i f).save = s.save := rfl
@[simp] theorem State.modSlice_powerUps (i : Nat) (f : Slice → Slice) : (s.modSlice i f).powerUps = s.powerUps := rfl
@[simp] theorem State.modSlice_ports (i : Nat) (f : Slice → Slice) : (s.modSlice i f).ports = s.ports := rfl
@[simp] theorem State.modSlice_groups (i : Nat) (f : Slice → Slice) : (s.modSlice i f).groups = s.groups := rfl
@[simp] theorem State.modSlice_counters (i : Nat) (f : Slice → Slice) : (s.modSlice i f).counters = s.counters := rfl
@[simp] theorem State.modSlice_flags (i : Nat) (f : Slice → Slice) : (s.modSlice i f).flags = s.flags := rfl
@[simp] theorem State.modSlice_bound (i : Nat) (f : Slice → Slice) : (s.modSlice i f).bound = s.bound := rfl
@[simp] theorem State.modSlice_lastUse (i : Nat) (f : Slice → Slice) : (s.modSlice i f).lastUse = s.lastUse := rfl
@[simp] theorem State.modSlice_useClock (i : Nat) (f : Slice → Slice) : (s.modSlice i f).useClock = s.useClock := rfl
@[simp] theorem State.modSlice_waiters (i : Nat) (f : Slice → Slice) : (s.modSlice i f).waiters = s.waiters := rfl
@[simp] theorem State.modSlice_timedQ (i : Nat) (f : Slice → Slice) : (s.modSlice i f).timedQ = s.timedQ := rfl
@[simp] theorem State.modSlice_marks (i : Nat) (f : Slice → Slice) : (s.modSlice i f).marks = s.marks := rfl
@[simp] theorem State.modSlice_filters (i : Nat) (f : Slice → Slice) : (s.modSlice i f).filters = s.filters := rfl
@[simp] theorem State.modSlice_ctxStall (i : Nat) (f : Slice → Slice) : (s.modSlice i f).ctxStall = s.ctxStall := rfl
@[simp] theorem State.modSlice_ctxMoved (i : Nat) (f : Slice → Slice) : (s.modSlice i f).ctxMoved = s.ctxMoved := rfl
@[simp] theorem State.modSlice_elog (i : Nat) (f : Slice → Slice) : (s.modSlice i f).elog = s.elog := rfl
@[simp] theorem State.modSlice_rp (i : Nat) (f : Slice → Slice) : (s.modSlice i f).rp = s.rp := rfl
@[simp] theorem State.modSlice_tp (i : Nat) (f : Slice → Slice) : (s.modSlice i f).tp = s.tp := rfl
@[simp] theorem State.modSlice_pw (i : Nat) (f : Slice → Slice) : (s.modSlice i f).pw = s.pw := rfl
@[simp] theorem State.modSlice_fw (i : Nat) (f : Slice → Slice) : (s.modSlice i f).fw = s.fw := rfl
@[simp] theorem State.modSlice_fuse (i : Nat) (f : Slice → Slice) : (s.modSlice i f).fuse = s.fuse := rfl
@[simp] theorem State.modSlice_wrap (i : Nat) (f : Slice → Slice) : (s.modSlice i f).wrap = s.wrap := rfl
@[simp] theorem State.modSlice_pins (i : Nat) (f : Slice → Slice) : (s.modSlice i f).pins = s.pins := rfl
@[simp] theorem State.modSlice_reg (i : Nat) (f : Slice → Slice) (x : Nat) : (s.modSlice i f).reg x = s.reg x := rfl
@[simp] theorem State.modSlice_field (i : Nat) (f : Slice → Slice) (x y z : Nat) : (s.modSlice i f).field x y z = s.field x y z := rfl
@[simp] theorem State.modSlice_bit (i : Nat) (f : Slice → Slice) (x y : Nat) : (s.modSlice i f).bit x y = s.bit x y := rfl
@[simp] theorem State.modSlice_tab (i : Nat) (f : Slice → Slice) (x y z : Nat) : (s.modSlice i f).tab x y z = s.tab x y z := rfl
@[simp] theorem State.modSlice_port (i : Nat) (f : Slice → Slice) (x : Nat) : (s.modSlice i f).port x = s.port x := rfl
@[simp] theorem State.modSlice_group (i : Nat) (f : Slice → Slice) (x : Nat) : (s.modSlice i f).group x = s.group x := rfl
@[simp] theorem State.modSlice_dom (i : Nat) (f : Slice → Slice) (x : Nat) : (s.modSlice i f).dom x = s.dom x := rfl
@[simp] theorem State.modSlice_ctr (i : Nat) (f : Slice → Slice) (x : Nat) : (s.modSlice i f).ctr x = s.ctr x := rfl
@[simp] theorem State.modSlice_flg (i : Nat) (f : Slice → Slice) (x : Nat) : (s.modSlice i f).flg x = s.flg x := rfl

@[simp] theorem State.setDom_pending (d : Nat) (q : Dom) : (s.setDom d q).pending = s.pending := rfl
@[simp] theorem State.setDom_build (d : Nat) (q : Dom) : (s.setDom d q).build = s.build := rfl
@[simp] theorem State.setDom_iid (d : Nat) (q : Dom) : (s.setDom d q).iid = s.iid := rfl
@[simp] theorem State.setDom_free (d : Nat) (q : Dom) : (s.setDom d q).free = s.free := rfl
@[simp] theorem State.setDom_driven (d : Nat) (q : Dom) : (s.setDom d q).driven = s.driven := rfl
@[simp] theorem State.setDom_uid (d : Nat) (q : Dom) : (s.setDom d q).uid = s.uid := rfl
@[simp] theorem State.setDom_turn (d : Nat) (q : Dom) : (s.setDom d q).turn = s.turn := rfl
@[simp] theorem State.setDom_cyc (d : Nat) (q : Dom) : (s.setDom d q).cyc = s.cyc := rfl
@[simp] theorem State.setDom_ftime (d : Nat) (q : Dom) : (s.setDom d q).ftime = s.ftime := rfl
@[simp] theorem State.setDom_regs (d : Nat) (q : Dom) : (s.setDom d q).regs = s.regs := rfl
@[simp] theorem State.setDom_stage (d : Nat) (q : Dom) : (s.setDom d q).stage = s.stage := rfl
@[simp] theorem State.setDom_rankNow (d : Nat) (q : Dom) : (s.setDom d q).rankNow = s.rankNow := rfl
@[simp] theorem State.setDom_rank (d : Nat) (q : Dom) : (s.setDom d q).rank = s.rank := rfl
@[simp] theorem State.setDom_rankLate (d : Nat) (q : Dom) : (s.setDom d q).rankLate = s.rankLate := rfl
@[simp] theorem State.setDom_mem (d : Nat) (q : Dom) : (s.setDom d q).mem = s.mem := rfl
@[simp] theorem State.setDom_save (d : Nat) (q : Dom) : (s.setDom d q).save = s.save := rfl
@[simp] theorem State.setDom_powerUps (d : Nat) (q : Dom) : (s.setDom d q).powerUps = s.powerUps := rfl
@[simp] theorem State.setDom_ports (d : Nat) (q : Dom) : (s.setDom d q).ports = s.ports := rfl
@[simp] theorem State.setDom_groups (d : Nat) (q : Dom) : (s.setDom d q).groups = s.groups := rfl
@[simp] theorem State.setDom_slices (d : Nat) (q : Dom) : (s.setDom d q).slices = s.slices := rfl
@[simp] theorem State.setDom_counters (d : Nat) (q : Dom) : (s.setDom d q).counters = s.counters := rfl
@[simp] theorem State.setDom_flags (d : Nat) (q : Dom) : (s.setDom d q).flags = s.flags := rfl
@[simp] theorem State.setDom_bound (d : Nat) (q : Dom) : (s.setDom d q).bound = s.bound := rfl
@[simp] theorem State.setDom_lastUse (d : Nat) (q : Dom) : (s.setDom d q).lastUse = s.lastUse := rfl
@[simp] theorem State.setDom_useClock (d : Nat) (q : Dom) : (s.setDom d q).useClock = s.useClock := rfl
@[simp] theorem State.setDom_waiters (d : Nat) (q : Dom) : (s.setDom d q).waiters = s.waiters := rfl
@[simp] theorem State.setDom_timedQ (d : Nat) (q : Dom) : (s.setDom d q).timedQ = s.timedQ := rfl
@[simp] theorem State.setDom_marks (d : Nat) (q : Dom) : (s.setDom d q).marks = s.marks := rfl
@[simp] theorem State.setDom_filters (d : Nat) (q : Dom) : (s.setDom d q).filters = s.filters := rfl
@[simp] theorem State.setDom_ctxStall (d : Nat) (q : Dom) : (s.setDom d q).ctxStall = s.ctxStall := rfl
@[simp] theorem State.setDom_ctxMoved (d : Nat) (q : Dom) : (s.setDom d q).ctxMoved = s.ctxMoved := rfl
@[simp] theorem State.setDom_elog (d : Nat) (q : Dom) : (s.setDom d q).elog = s.elog := rfl
@[simp] theorem State.setDom_rp (d : Nat) (q : Dom) : (s.setDom d q).rp = s.rp := rfl
@[simp] theorem State.setDom_tp (d : Nat) (q : Dom) : (s.setDom d q).tp = s.tp := rfl
@[simp] theorem State.setDom_fw (d : Nat) (q : Dom) : (s.setDom d q).fw = s.fw := rfl
@[simp] theorem State.setDom_fuse (d : Nat) (q : Dom) : (s.setDom d q).fuse = s.fuse := rfl
@[simp] theorem State.setDom_wrap (d : Nat) (q : Dom) : (s.setDom d q).wrap = s.wrap := rfl
@[simp] theorem State.setDom_pins (d : Nat) (q : Dom) : (s.setDom d q).pins = s.pins := rfl
@[simp] theorem State.setDom_reg (d : Nat) (q : Dom) (x : Nat) : (s.setDom d q).reg x = s.reg x := rfl
@[simp] theorem State.setDom_field (d : Nat) (q : Dom) (x y z : Nat) : (s.setDom d q).field x y z = s.field x y z := rfl
@[simp] theorem State.setDom_bit (d : Nat) (q : Dom) (x y : Nat) : (s.setDom d q).bit x y = s.bit x y := rfl
@[simp] theorem State.setDom_tab (d : Nat) (q : Dom) (x y z : Nat) : (s.setDom d q).tab x y z = s.tab x y z := rfl
@[simp] theorem State.setDom_port (d : Nat) (q : Dom) (x : Nat) : (s.setDom d q).port x = s.port x := rfl
@[simp] theorem State.setDom_group (d : Nat) (q : Dom) (x : Nat) : (s.setDom d q).group x = s.group x := rfl
@[simp] theorem State.setDom_slice (d : Nat) (q : Dom) (x : Nat) : (s.setDom d q).slice x = s.slice x := rfl
@[simp] theorem State.setDom_ctr (d : Nat) (q : Dom) (x : Nat) : (s.setDom d q).ctr x = s.ctr x := rfl
@[simp] theorem State.setDom_flg (d : Nat) (q : Dom) (x : Nat) : (s.setDom d q).flg x = s.flg x := rfl

@[simp] theorem State.modDom_pending (d : Nat) (f : Dom → Dom) : (s.modDom d f).pending = s.pending := rfl
@[simp] theorem State.modDom_build (d : Nat) (f : Dom → Dom) : (s.modDom d f).build = s.build := rfl
@[simp] theorem State.modDom_iid (d : Nat) (f : Dom → Dom) : (s.modDom d f).iid = s.iid := rfl
@[simp] theorem State.modDom_free (d : Nat) (f : Dom → Dom) : (s.modDom d f).free = s.free := rfl
@[simp] theorem State.modDom_driven (d : Nat) (f : Dom → Dom) : (s.modDom d f).driven = s.driven := rfl
@[simp] theorem State.modDom_uid (d : Nat) (f : Dom → Dom) : (s.modDom d f).uid = s.uid := rfl
@[simp] theorem State.modDom_turn (d : Nat) (f : Dom → Dom) : (s.modDom d f).turn = s.turn := rfl
@[simp] theorem State.modDom_cyc (d : Nat) (f : Dom → Dom) : (s.modDom d f).cyc = s.cyc := rfl
@[simp] theorem State.modDom_ftime (d : Nat) (f : Dom → Dom) : (s.modDom d f).ftime = s.ftime := rfl
@[simp] theorem State.modDom_regs (d : Nat) (f : Dom → Dom) : (s.modDom d f).regs = s.regs := rfl
@[simp] theorem State.modDom_stage (d : Nat) (f : Dom → Dom) : (s.modDom d f).stage = s.stage := rfl
@[simp] theorem State.modDom_rankNow (d : Nat) (f : Dom → Dom) : (s.modDom d f).rankNow = s.rankNow := rfl
@[simp] theorem State.modDom_rank (d : Nat) (f : Dom → Dom) : (s.modDom d f).rank = s.rank := rfl
@[simp] theorem State.modDom_rankLate (d : Nat) (f : Dom → Dom) : (s.modDom d f).rankLate = s.rankLate := rfl
@[simp] theorem State.modDom_mem (d : Nat) (f : Dom → Dom) : (s.modDom d f).mem = s.mem := rfl
@[simp] theorem State.modDom_save (d : Nat) (f : Dom → Dom) : (s.modDom d f).save = s.save := rfl
@[simp] theorem State.modDom_powerUps (d : Nat) (f : Dom → Dom) : (s.modDom d f).powerUps = s.powerUps := rfl
@[simp] theorem State.modDom_ports (d : Nat) (f : Dom → Dom) : (s.modDom d f).ports = s.ports := rfl
@[simp] theorem State.modDom_groups (d : Nat) (f : Dom → Dom) : (s.modDom d f).groups = s.groups := rfl
@[simp] theorem State.modDom_slices (d : Nat) (f : Dom → Dom) : (s.modDom d f).slices = s.slices := rfl
@[simp] theorem State.modDom_counters (d : Nat) (f : Dom → Dom) : (s.modDom d f).counters = s.counters := rfl
@[simp] theorem State.modDom_flags (d : Nat) (f : Dom → Dom) : (s.modDom d f).flags = s.flags := rfl
@[simp] theorem State.modDom_bound (d : Nat) (f : Dom → Dom) : (s.modDom d f).bound = s.bound := rfl
@[simp] theorem State.modDom_lastUse (d : Nat) (f : Dom → Dom) : (s.modDom d f).lastUse = s.lastUse := rfl
@[simp] theorem State.modDom_useClock (d : Nat) (f : Dom → Dom) : (s.modDom d f).useClock = s.useClock := rfl
@[simp] theorem State.modDom_waiters (d : Nat) (f : Dom → Dom) : (s.modDom d f).waiters = s.waiters := rfl
@[simp] theorem State.modDom_timedQ (d : Nat) (f : Dom → Dom) : (s.modDom d f).timedQ = s.timedQ := rfl
@[simp] theorem State.modDom_marks (d : Nat) (f : Dom → Dom) : (s.modDom d f).marks = s.marks := rfl
@[simp] theorem State.modDom_filters (d : Nat) (f : Dom → Dom) : (s.modDom d f).filters = s.filters := rfl
@[simp] theorem State.modDom_ctxStall (d : Nat) (f : Dom → Dom) : (s.modDom d f).ctxStall = s.ctxStall := rfl
@[simp] theorem State.modDom_ctxMoved (d : Nat) (f : Dom → Dom) : (s.modDom d f).ctxMoved = s.ctxMoved := rfl
@[simp] theorem State.modDom_elog (d : Nat) (f : Dom → Dom) : (s.modDom d f).elog = s.elog := rfl
@[simp] theorem State.modDom_rp (d : Nat) (f : Dom → Dom) : (s.modDom d f).rp = s.rp := rfl
@[simp] theorem State.modDom_tp (d : Nat) (f : Dom → Dom) : (s.modDom d f).tp = s.tp := rfl
@[simp] theorem State.modDom_fw (d : Nat) (f : Dom → Dom) : (s.modDom d f).fw = s.fw := rfl
@[simp] theorem State.modDom_fuse (d : Nat) (f : Dom → Dom) : (s.modDom d f).fuse = s.fuse := rfl
@[simp] theorem State.modDom_wrap (d : Nat) (f : Dom → Dom) : (s.modDom d f).wrap = s.wrap := rfl
@[simp] theorem State.modDom_pins (d : Nat) (f : Dom → Dom) : (s.modDom d f).pins = s.pins := rfl
@[simp] theorem State.modDom_reg (d : Nat) (f : Dom → Dom) (x : Nat) : (s.modDom d f).reg x = s.reg x := rfl
@[simp] theorem State.modDom_field (d : Nat) (f : Dom → Dom) (x y z : Nat) : (s.modDom d f).field x y z = s.field x y z := rfl
@[simp] theorem State.modDom_bit (d : Nat) (f : Dom → Dom) (x y : Nat) : (s.modDom d f).bit x y = s.bit x y := rfl
@[simp] theorem State.modDom_tab (d : Nat) (f : Dom → Dom) (x y z : Nat) : (s.modDom d f).tab x y z = s.tab x y z := rfl
@[simp] theorem State.modDom_port (d : Nat) (f : Dom → Dom) (x : Nat) : (s.modDom d f).port x = s.port x := rfl
@[simp] theorem State.modDom_group (d : Nat) (f : Dom → Dom) (x : Nat) : (s.modDom d f).group x = s.group x := rfl
@[simp] theorem State.modDom_slice (d : Nat) (f : Dom → Dom) (x : Nat) : (s.modDom d f).slice x = s.slice x := rfl
@[simp] theorem State.modDom_ctr (d : Nat) (f : Dom → Dom) (x : Nat) : (s.modDom d f).ctr x = s.ctr x := rfl
@[simp] theorem State.modDom_flg (d : Nat) (f : Dom → Dom) (x : Nat) : (s.modDom d f).flg x = s.flg x := rfl

@[simp] theorem State.drive_pending (o : Out) : (s.drive o).pending = s.pending := rfl
@[simp] theorem State.drive_build (o : Out) : (s.drive o).build = s.build := rfl
@[simp] theorem State.drive_iid (o : Out) : (s.drive o).iid = s.iid := rfl
@[simp] theorem State.drive_free (o : Out) : (s.drive o).free = s.free := rfl
@[simp] theorem State.drive_driven (o : Out) : (s.drive o).driven = o :: s.driven := rfl
@[simp] theorem State.drive_uid (o : Out) : (s.drive o).uid = s.uid := rfl
@[simp] theorem State.drive_turn (o : Out) : (s.drive o).turn = s.turn := rfl
@[simp] theorem State.drive_cyc (o : Out) : (s.drive o).cyc = s.cyc := rfl
@[simp] theorem State.drive_ftime (o : Out) : (s.drive o).ftime = s.ftime := rfl
@[simp] theorem State.drive_regs (o : Out) : (s.drive o).regs = s.regs := rfl
@[simp] theorem State.drive_stage (o : Out) : (s.drive o).stage = s.stage := rfl
@[simp] theorem State.drive_rankNow (o : Out) : (s.drive o).rankNow = s.rankNow := rfl
@[simp] theorem State.drive_rank (o : Out) : (s.drive o).rank = s.rank := rfl
@[simp] theorem State.drive_rankLate (o : Out) : (s.drive o).rankLate = s.rankLate := rfl
@[simp] theorem State.drive_mem (o : Out) : (s.drive o).mem = s.mem := rfl
@[simp] theorem State.drive_save (o : Out) : (s.drive o).save = s.save := rfl
@[simp] theorem State.drive_powerUps (o : Out) : (s.drive o).powerUps = s.powerUps := rfl
@[simp] theorem State.drive_ports (o : Out) : (s.drive o).ports = s.ports := rfl
@[simp] theorem State.drive_groups (o : Out) : (s.drive o).groups = s.groups := rfl
@[simp] theorem State.drive_slices (o : Out) : (s.drive o).slices = s.slices := rfl
@[simp] theorem State.drive_counters (o : Out) : (s.drive o).counters = s.counters := rfl
@[simp] theorem State.drive_flags (o : Out) : (s.drive o).flags = s.flags := rfl
@[simp] theorem State.drive_bound (o : Out) : (s.drive o).bound = s.bound := rfl
@[simp] theorem State.drive_lastUse (o : Out) : (s.drive o).lastUse = s.lastUse := rfl
@[simp] theorem State.drive_useClock (o : Out) : (s.drive o).useClock = s.useClock := rfl
@[simp] theorem State.drive_waiters (o : Out) : (s.drive o).waiters = s.waiters := rfl
@[simp] theorem State.drive_timedQ (o : Out) : (s.drive o).timedQ = s.timedQ := rfl
@[simp] theorem State.drive_marks (o : Out) : (s.drive o).marks = s.marks := rfl
@[simp] theorem State.drive_filters (o : Out) : (s.drive o).filters = s.filters := rfl
@[simp] theorem State.drive_ctxStall (o : Out) : (s.drive o).ctxStall = s.ctxStall := rfl
@[simp] theorem State.drive_ctxMoved (o : Out) : (s.drive o).ctxMoved = s.ctxMoved := rfl
@[simp] theorem State.drive_elog (o : Out) : (s.drive o).elog = s.elog := rfl
@[simp] theorem State.drive_rp (o : Out) : (s.drive o).rp = s.rp := rfl
@[simp] theorem State.drive_tp (o : Out) : (s.drive o).tp = s.tp := rfl
@[simp] theorem State.drive_pw (o : Out) : (s.drive o).pw = s.pw := rfl
@[simp] theorem State.drive_fw (o : Out) : (s.drive o).fw = s.fw := rfl
@[simp] theorem State.drive_fuse (o : Out) : (s.drive o).fuse = s.fuse := rfl
@[simp] theorem State.drive_wrap (o : Out) : (s.drive o).wrap = s.wrap := rfl
@[simp] theorem State.drive_pins (o : Out) : (s.drive o).pins = s.pins := rfl
@[simp] theorem State.drive_reg (o : Out) (x : Nat) : (s.drive o).reg x = s.reg x := rfl
@[simp] theorem State.drive_field (o : Out) (x y z : Nat) : (s.drive o).field x y z = s.field x y z := rfl
@[simp] theorem State.drive_bit (o : Out) (x y : Nat) : (s.drive o).bit x y = s.bit x y := rfl
@[simp] theorem State.drive_tab (o : Out) (x y z : Nat) : (s.drive o).tab x y z = s.tab x y z := rfl
@[simp] theorem State.drive_port (o : Out) (x : Nat) : (s.drive o).port x = s.port x := rfl
@[simp] theorem State.drive_group (o : Out) (x : Nat) : (s.drive o).group x = s.group x := rfl
@[simp] theorem State.drive_slice (o : Out) (x : Nat) : (s.drive o).slice x = s.slice x := rfl
@[simp] theorem State.drive_dom (o : Out) (x : Nat) : (s.drive o).dom x = s.dom x := rfl
@[simp] theorem State.drive_ctr (o : Out) (x : Nat) : (s.drive o).ctr x = s.ctr x := rfl
@[simp] theorem State.drive_flg (o : Out) (x : Nat) : (s.drive o).flg x = s.flg x := rfl

@[simp] theorem State.fresh_pending  : (s.fresh).pending = s.pending := rfl
@[simp] theorem State.fresh_build  : (s.fresh).build = s.build := rfl
@[simp] theorem State.fresh_iid  : (s.fresh).iid = s.iid := rfl
@[simp] theorem State.fresh_free  : (s.fresh).free = s.free := rfl
@[simp] theorem State.fresh_driven  : (s.fresh).driven = s.driven := rfl
@[simp] theorem State.fresh_uid  : (s.fresh).uid = s.uid + 1 := rfl
@[simp] theorem State.fresh_turn  : (s.fresh).turn = s.turn := rfl
@[simp] theorem State.fresh_cyc  : (s.fresh).cyc = s.cyc := rfl
@[simp] theorem State.fresh_ftime  : (s.fresh).ftime = s.ftime := rfl
@[simp] theorem State.fresh_regs  : (s.fresh).regs = s.regs := rfl
@[simp] theorem State.fresh_stage  : (s.fresh).stage = s.stage := rfl
@[simp] theorem State.fresh_rankNow  : (s.fresh).rankNow = s.rankNow := rfl
@[simp] theorem State.fresh_rank  : (s.fresh).rank = s.rank := rfl
@[simp] theorem State.fresh_rankLate  : (s.fresh).rankLate = s.rankLate := rfl
@[simp] theorem State.fresh_mem  : (s.fresh).mem = s.mem := rfl
@[simp] theorem State.fresh_save  : (s.fresh).save = s.save := rfl
@[simp] theorem State.fresh_powerUps  : (s.fresh).powerUps = s.powerUps := rfl
@[simp] theorem State.fresh_ports  : (s.fresh).ports = s.ports := rfl
@[simp] theorem State.fresh_groups  : (s.fresh).groups = s.groups := rfl
@[simp] theorem State.fresh_slices  : (s.fresh).slices = s.slices := rfl
@[simp] theorem State.fresh_counters  : (s.fresh).counters = s.counters := rfl
@[simp] theorem State.fresh_flags  : (s.fresh).flags = s.flags := rfl
@[simp] theorem State.fresh_bound  : (s.fresh).bound = s.bound := rfl
@[simp] theorem State.fresh_lastUse  : (s.fresh).lastUse = s.lastUse := rfl
@[simp] theorem State.fresh_useClock  : (s.fresh).useClock = s.useClock := rfl
@[simp] theorem State.fresh_waiters  : (s.fresh).waiters = s.waiters := rfl
@[simp] theorem State.fresh_timedQ  : (s.fresh).timedQ = s.timedQ := rfl
@[simp] theorem State.fresh_marks  : (s.fresh).marks = s.marks := rfl
@[simp] theorem State.fresh_filters  : (s.fresh).filters = s.filters := rfl
@[simp] theorem State.fresh_ctxStall  : (s.fresh).ctxStall = s.ctxStall := rfl
@[simp] theorem State.fresh_ctxMoved  : (s.fresh).ctxMoved = s.ctxMoved := rfl
@[simp] theorem State.fresh_elog  : (s.fresh).elog = s.elog := rfl
@[simp] theorem State.fresh_rp  : (s.fresh).rp = s.rp := rfl
@[simp] theorem State.fresh_tp  : (s.fresh).tp = s.tp := rfl
@[simp] theorem State.fresh_pw  : (s.fresh).pw = s.pw := rfl
@[simp] theorem State.fresh_fw  : (s.fresh).fw = s.fw := rfl
@[simp] theorem State.fresh_fuse  : (s.fresh).fuse = s.fuse := rfl
@[simp] theorem State.fresh_wrap  : (s.fresh).wrap = s.wrap := rfl
@[simp] theorem State.fresh_pins  : (s.fresh).pins = s.pins := rfl
@[simp] theorem State.fresh_reg  (x : Nat) : (s.fresh).reg x = s.reg x := rfl
@[simp] theorem State.fresh_field  (x y z : Nat) : (s.fresh).field x y z = s.field x y z := rfl
@[simp] theorem State.fresh_bit  (x y : Nat) : (s.fresh).bit x y = s.bit x y := rfl
@[simp] theorem State.fresh_tab  (x y z : Nat) : (s.fresh).tab x y z = s.tab x y z := rfl
@[simp] theorem State.fresh_port  (x : Nat) : (s.fresh).port x = s.port x := rfl
@[simp] theorem State.fresh_group  (x : Nat) : (s.fresh).group x = s.group x := rfl
@[simp] theorem State.fresh_slice  (x : Nat) : (s.fresh).slice x = s.slice x := rfl
@[simp] theorem State.fresh_dom  (x : Nat) : (s.fresh).dom x = s.dom x := rfl
@[simp] theorem State.fresh_ctr  (x : Nat) : (s.fresh).ctr x = s.ctr x := rfl
@[simp] theorem State.fresh_flg  (x : Nat) : (s.fresh).flg x = s.flg x := rfl

/-- A register read after a register write. -/
theorem State.reg_setReg (o x : Nat) (v : Word) : (s.setReg o v).reg x = if x = o then v else s.reg x := by
  simp only [State.reg, State.setReg, tfind_tset]
  split <;> rfl

@[simp] theorem State.reg_setReg_same (o : Nat) (v : Word) : (s.setReg o v).reg o = v := by simp [State.reg_setReg]

theorem State.reg_setReg_other (o x : Nat) (v : Word) (h : x ≠ o) : (s.setReg o v).reg x = s.reg x := by
  simp [State.reg_setReg, h]

/-- A field of a table read after a register write. -/
theorem State.tab_setReg (o x hi lo : Nat) (v : Word) : (s.setReg o v).tab x hi lo = if x = o then wfld v hi lo else s.tab x hi lo := by
  simp only [State.tab, State.setReg, tfind_tset]
  split <;> rfl

theorem State.field_setReg_other (o x hi lo : Nat) (v : Word) (h : x ≠ o) : (s.setReg o v).field x hi lo = s.field x hi lo := by
  simp [State.field, State.reg_setReg, h]

theorem State.bit_setReg_other (o x i : Nat) (v : Word) (h : x ≠ o) : (s.setReg o v).bit x i = s.bit x i := by
  simp [State.bit, State.reg_setReg, h]

theorem State.reg_setFld_other (o hi lo v x : Nat) (h : x ≠ o) : (s.setFld o hi lo v).reg x = s.reg x :=
  s.reg_setReg_other o x _ h

theorem State.reg_setBit_other (o i x : Nat) (h : x ≠ o) : (s.setBit o i).reg x = s.reg x := s.reg_setReg_other o x _ h

theorem State.reg_bump_other (o hi lo n x : Nat) (h : x ≠ o) : (s.bump o hi lo n).reg x = s.reg x := s.reg_setReg_other o x _ h

theorem State.reg_raise_other (o hi lo v x : Nat) (h : x ≠ o) : (s.raise o hi lo v).reg x = s.reg x := by
  unfold State.raise; dsimp only
  split
  · exact s.reg_setReg_other o x _ h
  · rfl

/-- `port` after `setPort` and `modPort`. -/
theorem State.port_setPort (p x : Nat) (q : Port) : (s.setPort p q).port x = if x = p then q else s.port x := by
  simp only [State.port, State.setPort, tfind_tset]
  split <;> rfl

@[simp] theorem State.port_setPort_same (p : Nat) (q : Port) : (s.setPort p q).port p = q := by simp [State.port_setPort]

theorem State.port_modPort (p x : Nat) (f : Port → Port) : (s.modPort p f).port x = if x = p then f (s.port p) else s.port x :=
  s.port_setPort p x _

@[simp] theorem State.port_modPort_same (p : Nat) (f : Port → Port) : (s.modPort p f).port p = f (s.port p) := by
  simp [State.port_modPort]

theorem State.port_modPort_other (p x : Nat) (f : Port → Port) (h : x ≠ p) : (s.modPort p f).port x = s.port x := by
  simp [State.port_modPort, h]

/-- `group` after `setGroup` and `modGroup`. -/
theorem State.group_setGroup (g x : Nat) (q : Group) : (s.setGroup g q).group x = if x = g then q else s.group x := by
  simp only [State.group, State.setGroup, tfind_tset]
  split <;> rfl

@[simp] theorem State.group_setGroup_same (g : Nat) (q : Group) : (s.setGroup g q).group g = q := by simp [State.group_setGroup]

theorem State.group_modGroup (g x : Nat) (f : Group → Group) : (s.modGroup g f).group x = if x = g then f (s.group g) else s.group x :=
  s.group_setGroup g x _

@[simp] theorem State.group_modGroup_same (g : Nat) (f : Group → Group) : (s.modGroup g f).group g = f (s.group g) := by
  simp [State.group_modGroup]

theorem State.group_modGroup_other (g x : Nat) (f : Group → Group) (h : x ≠ g) : (s.modGroup g f).group x = s.group x := by
  simp [State.group_modGroup, h]

/-- `slice` after `setSlice` and `modSlice`. -/
theorem State.slice_setSlice (i x : Nat) (q : Slice) : (s.setSlice i q).slice x = if x = i then q else s.slice x := by
  simp only [State.slice, State.setSlice, tfind_tset]
  split <;> rfl

@[simp] theorem State.slice_setSlice_same (i : Nat) (q : Slice) : (s.setSlice i q).slice i = q := by simp [State.slice_setSlice]

theorem State.slice_modSlice (i x : Nat) (f : Slice → Slice) : (s.modSlice i f).slice x = if x = i then f (s.slice i) else s.slice x :=
  s.slice_setSlice i x _

@[simp] theorem State.slice_modSlice_same (i : Nat) (f : Slice → Slice) : (s.modSlice i f).slice i = f (s.slice i) := by
  simp [State.slice_modSlice]

theorem State.slice_modSlice_other (i x : Nat) (f : Slice → Slice) (h : x ≠ i) : (s.modSlice i f).slice x = s.slice x := by
  simp [State.slice_modSlice, h]

/-- `dom` after `setDom` and `modDom`. -/
theorem State.dom_setDom (d x : Nat) (q : Dom) : (s.setDom d q).dom x = if x = d then q else s.dom x := by
  simp only [State.dom, State.setDom, tfind_tset]
  split <;> rfl

@[simp] theorem State.dom_setDom_same (d : Nat) (q : Dom) : (s.setDom d q).dom d = q := by simp [State.dom_setDom]

theorem State.dom_modDom (d x : Nat) (f : Dom → Dom) : (s.modDom d f).dom x = if x = d then f (s.dom d) else s.dom x :=
  s.dom_setDom d x _

@[simp] theorem State.dom_modDom_same (d : Nat) (f : Dom → Dom) : (s.modDom d f).dom d = f (s.dom d) := by
  simp [State.dom_modDom]

theorem State.dom_modDom_other (d x : Nat) (f : Dom → Dom) (h : x ≠ d) : (s.modDom d f).dom x = s.dom x := by
  simp [State.dom_modDom, h]

end Sys2Proof.Machine
end

