-- ==== Sys2Proof/Laws/Steady.lean ====
section
/-! SUPPORT. The relation `Steady`: what every operation but a reset, the turn boundary and the clock keeps. The queue, the
build, the identity, the turn and the cycle stay; both memories keep their canonical form; what has been driven is only added
to; the model's own counters only rise. One lemma for each operation follows in the files beside this one. -/
namespace Sys2Proof.Machine

/-- What an operation on a state keeps. -/
structure Steady (s t : State) : Prop where
  pending : t.pending = s.pending
  build : t.build = s.build
  iid : t.iid = s.iid
  turn : t.turn = s.turn
  cyc : t.cyc = s.cyc
  mem : Memory.wf s.mem = true → Memory.wf t.mem = true
  save : Memory.wf s.save = true → Memory.wf t.save = true
  driven : s.driven <:+ t.driven
  free : s.free ≤ t.free
  uid : s.uid ≤ t.uid

theorem Steady.refl (s : State) : Steady s s :=
  ⟨rfl, rfl, rfl, rfl, rfl, id, id, List.suffix_refl _, Nat.le_refl _, Nat.le_refl _⟩

theorem Steady.trans {a s t : State} (h : Steady a s) (k : Steady s t) : Steady a t :=
  ⟨k.pending.trans h.pending, k.build.trans h.build, k.iid.trans h.iid, k.turn.trans h.turn, k.cyc.trans h.cyc,
    fun m => k.mem (h.mem m), fun m => k.save (h.save m), h.driven.trans k.driven, Nat.le_trans h.free k.free,
    Nat.le_trans h.uid k.uid⟩

/-- An update of fields that `Steady` does not speak of. -/
theorem Steady.upd {a s : State} {ftime : Word} {regs : Table Word} {stage : Table Word} {rankNow : Word} {rank : Word}
    {rankLate : Word} {powerUps : Table Nat} {ports : Table Port} {groups : Table Group} {slices : Table Slice}
    {counters : Table Ctr} {flags : Table Flg} {bound : Table Bound} {lastUse : Table Nat} {useClock : Nat}
    {waiters : List Waiter} {timedQ : List TSig} {marks : Table Nat} {filters : Table Filter} {ctxStall : Table Nat}
    {ctxMoved : Table Bool} {elog : List Finding} {rp : Rp} {tp : Tp} {pw : Pw} {fw : Fw} {fuse : Fuse} {wrap : Wrap}
    {pins : Pins}
    (h : Steady a s) :
    Steady a (State.mk s.pending s.build s.iid s.free s.driven s.uid s.turn s.cyc ftime regs stage rankNow rank rankLate
    s.mem s.save powerUps ports groups slices counters flags bound lastUse useClock waiters timedQ marks filters ctxStall
    ctxMoved elog rp tp pw fw fuse wrap pins) :=
  h.trans ⟨rfl, rfl, rfl, rfl, rfl, id, id, List.suffix_refl _, Nat.le_refl _, Nat.le_refl _⟩

/-- A state on the way, known first. -/
theorem Steady.cut {a v t : State} (h : Steady a v) (k : Steady a v → Steady a t) : Steady a t := k h

/-- A choice between two states. -/
theorem Steady.choice {a s t : State} {c : Prop} [Decidable c] (h : Steady a s) (k : Steady a t) :
    Steady a (if c then s else t) := by
  split
  · exact h
  · exact k

theorem Steady.foldl {a : State} {α : Type} {f : State → α → State} (hf : ∀ s x, Steady a s → Steady a (f s x)) (l : List α) {s : State}
    (h : Steady a s) : Steady a (l.foldl f s) := by
  induction l generalizing s with
  | nil => exact h
  | cons x l ih => exact ih (hf s x h)

theorem Steady.foldState {a : State} {α : Type} {f : State → α → State} {l : List α} {s : State}
    (hf : ∀ s x, Steady a s → Steady a (f s x)) (h : Steady a s) : Steady a (foldState f l s) := Steady.foldl hf l h

/-- The state an operation gives, or the one before it. -/
theorem Steady.getD {a s : State} {o : Option State} (h : ∀ t, o = some t → Steady a t) (k : Steady a s) : Steady a (o.getD s) := by
  cases o with
  | none => exact k
  | some t => exact h t rfl

/-- A fold that carries something beside the state. -/
theorem Steady.foldl_fst {a : State} {α β : Type} {f : State × β → α → State × β}
    (hf : ∀ (s : State × β) (x : α), Steady a s.1 → Steady a (f s x).1) (l : List α) {s : State × β} (h : Steady a s.1) :
    Steady a (l.foldl f s).1 := by
  induction l generalizing s with
  | nil => exact h
  | cons x l ih => exact ih (hf s x h)

/-! ## The operations that change what `Steady` speaks of -/

theorem State.drive_steady {a s : State} (o : Out) (h : Steady a s) : Steady a (s.drive o) :=
  h.trans ⟨rfl, rfl, rfl, rfl, rfl, id, id, List.suffix_cons _ _, Nat.le_refl _, Nat.le_refl _⟩

theorem State.fresh_steady {a s : State} (h : Steady a s) : Steady a s.fresh :=
  h.trans ⟨rfl, rfl, rfl, rfl, rfl, id, id, List.suffix_refl _, Nat.le_refl _, Nat.le_succ _⟩

/-- A step of the counter of free values. -/
theorem Steady.stepFree {a s : State} (n : Nat) (h : Steady a s) : Steady a { s with free := s.free + n } :=
  h.trans ⟨rfl, rfl, rfl, rfl, rfl, id, id, List.suffix_refl _, Nat.le_add_right _ _, Nat.le_refl _⟩

theorem State.setImage_steady {a s : State} (h : Home) (im : Image) (k : Steady a s) : Steady a (s.setImage h im) := by
  unfold State.setImage
  split
  · exact k.trans ⟨rfl, rfl, rfl, rfl, rfl, id, Memory.wf_writeRun _ _ _, List.suffix_refl _, Nat.le_refl _, Nat.le_refl _⟩
  · exact k.trans ⟨rfl, rfl, rfl, rfl, rfl, Memory.wf_writeRun _ _ _, id, List.suffix_refl _, Nat.le_refl _, Nat.le_refl _⟩

theorem State.setMeta_steady {a s : State} (h : Home) (v p : Bool) (k : Steady a s) : Steady a (s.setMeta h v p) := by
  unfold State.setMeta
  split
  · exact k.trans ⟨rfl, rfl, rfl, rfl, rfl, id, Memory.wf_putCell _ _ _, List.suffix_refl _, Nat.le_refl _, Nat.le_refl _⟩
  · exact k.trans ⟨rfl, rfl, rfl, rfl, rfl, Memory.wf_putCell _ _ _, id, List.suffix_refl _, Nat.le_refl _, Nat.le_refl _⟩

end Sys2Proof.Machine
end

