-- ==== Sys2Proof/Laws/Local.lean ====
section
/-! SUPPORT. The relation `Local p`: what everything a request of port p sets off keeps. Both memories, the slices, the links,
the wrapper and every other port stay as they are. One lemma for each operation on the way. -/
namespace Sys2Proof.Machine

/-- What an operation of port p keeps. -/
structure Local (p : Nat) (s t : State) : Prop where
  pending : t.pending = s.pending
  build : t.build = s.build
  iid : t.iid = s.iid
  free : t.free = s.free
  turn : t.turn = s.turn
  cyc : t.cyc = s.cyc
  ftime : t.ftime = s.ftime
  stage : t.stage = s.stage
  rankNow : t.rankNow = s.rankNow
  rank : t.rank = s.rank
  rankLate : t.rankLate = s.rankLate
  mem : t.mem = s.mem
  save : t.save = s.save
  powerUps : t.powerUps = s.powerUps
  slices : t.slices = s.slices
  bound : t.bound = s.bound
  timedQ : t.timedQ = s.timedQ
  marks : t.marks = s.marks
  ctxStall : t.ctxStall = s.ctxStall
  elog : t.elog = s.elog
  rp : t.rp = s.rp
  tp : t.tp = s.tp
  fuse : t.fuse = s.fuse
  wrap : t.wrap = s.wrap
  pins : t.pins = s.pins
  others : ∀ q, q ≠ p → t.port q = s.port q

theorem Local.refl (p : Nat) (s : State) : Local p s s := ⟨rfl, rfl, rfl, rfl, rfl, rfl, rfl, rfl, rfl, rfl, rfl, rfl, rfl, rfl, rfl, rfl, rfl, rfl, rfl, rfl, rfl, rfl, rfl, rfl, rfl, fun _ _ => rfl⟩

theorem Local.trans {p : Nat} {a s t : State} (h : Local p a s) (k : Local p s t) : Local p a t :=
  ⟨k.pending.trans h.pending, k.build.trans h.build, k.iid.trans h.iid, k.free.trans h.free,
    k.turn.trans h.turn, k.cyc.trans h.cyc, k.ftime.trans h.ftime, k.stage.trans h.stage,
    k.rankNow.trans h.rankNow, k.rank.trans h.rank, k.rankLate.trans h.rankLate, k.mem.trans h.mem,
    k.save.trans h.save, k.powerUps.trans h.powerUps, k.slices.trans h.slices, k.bound.trans h.bound,
    k.timedQ.trans h.timedQ, k.marks.trans h.marks, k.ctxStall.trans h.ctxStall, k.elog.trans h.elog,
    k.rp.trans h.rp, k.tp.trans h.tp, k.fuse.trans h.fuse, k.wrap.trans h.wrap,
    k.pins.trans h.pins,
    fun q hq => (k.others q hq).trans (h.others q hq)⟩

/-- An update of fields that `Local` does not speak of. -/
theorem Local.upd {p : Nat} {a s : State} {driven : List Out} {uid : Nat} {regs : Table Word} {groups : Table Group}
    {counters : Table Ctr} {flags : Table Flg} {lastUse : Table Nat} {useClock : Nat} {waiters : List Waiter}
    {filters : Table Filter} {ctxMoved : Table Bool} {pw : Pw} {fw : Fw}
    (h : Local p a s) :
    Local p a (State.mk s.pending s.build s.iid s.free driven uid s.turn s.cyc s.ftime regs s.stage s.rankNow s.rank
    s.rankLate s.mem s.save s.powerUps s.ports groups s.slices counters flags s.bound lastUse useClock waiters s.timedQ
    s.marks filters s.ctxStall ctxMoved s.elog s.rp s.tp pw fw s.fuse s.wrap s.pins) :=
  h.trans ⟨rfl, rfl, rfl, rfl, rfl, rfl, rfl, rfl, rfl, rfl, rfl, rfl, rfl, rfl, rfl, rfl, rfl, rfl, rfl, rfl, rfl, rfl,
    rfl, rfl, rfl, fun _ _ => rfl⟩

/-- A state on the way, known first. -/
theorem Local.cut {p : Nat} {a v t : State} (h : Local p a v) (k : Local p a v → Local p a t) : Local p a t := k h

/-- A choice between two states. -/
theorem Local.choice {p : Nat} {a s t : State} {c : Prop} [Decidable c] (h : Local p a s) (k : Local p a t) :
    Local p a (if c then s else t) := by
  split
  · exact h
  · exact k

theorem Local.foldl {p : Nat} {a : State} {α : Type} {f : State → α → State} (hf : ∀ s x, Local p a s → Local p a (f s x)) (l : List α)
    {s : State} (h : Local p a s) : Local p a (l.foldl f s) := by
  induction l generalizing s with
  | nil => exact h
  | cons x l ih => exact ih (hf s x h)

theorem Local.foldState {p : Nat} {a : State} {α : Type} {f : State → α → State} {l : List α} {s : State}
    (hf : ∀ s x, Local p a s → Local p a (f s x)) (h : Local p a s) : Local p a (foldState f l s) := Local.foldl hf l h

/-- A fold that carries something beside the state. -/
theorem Local.foldl_fst {p : Nat} {a : State} {α β : Type} {f : State × β → α → State × β}
    (hf : ∀ (s : State × β) (x : α), Local p a s.1 → Local p a (f s x).1) (l : List α) {s : State × β} (h : Local p a s.1) :
    Local p a (l.foldl f s).1 := by
  induction l generalizing s with
  | nil => exact h
  | cons x l ih => exact ih (hf s x h)

theorem State.setPort_local {p : Nat} {a s : State} (q : Port) (hk : Local p a s) : Local p a (s.setPort p q) :=
  hk.trans ⟨rfl, rfl, rfl, rfl, rfl, rfl, rfl, rfl, rfl, rfl, rfl, rfl, rfl, rfl, rfl, rfl, rfl, rfl, rfl, rfl, rfl, rfl, rfl, rfl, rfl, fun x hx => by simp [State.port_setPort, hx]⟩

theorem State.modPort_local {p : Nat} {a s : State} (f : Port → Port) (hk : Local p a s) : Local p a (s.modPort p f) :=
  State.setPort_local _ hk

theorem State.fresh_local {p : Nat} {a : State} {s : State} (hk : Local p a s) : Local p a (State.fresh s) := by
  unfold State.fresh
  repeat' first
    | with_reducible assumption
    | intro _
    | (extract_lets +onlyGivenNames v; refine Local.cut (v := v) ?_ (fun _ => ?_); rotate_left; clear_value v; revert v; intros; rotate_right; unfold v; clear v)
    | (extract_lets +onlyGivenNames v; clear_value v; revert v; intros)
    | with_reducible refine Local.foldState (fun _ _ _ => ?_) ?_
    | with_reducible refine Local.foldl (fun _ _ _ => ?_) _ ?_
    | with_reducible refine Local.choice ?_ ?_
    | split
    | with_reducible apply Local.upd

theorem State.enqueue_local {p : Nat} {a : State} {s : State} (r : Req) (hk : Local p a s) : Local p a (State.enqueue s p r) := by
  unfold State.enqueue
  repeat' first
    | with_reducible assumption
    | intro _
    | (extract_lets +onlyGivenNames v; refine Local.cut (v := v) ?_ (fun _ => ?_); rotate_left; clear_value v; revert v; intros; rotate_right; unfold v; clear v)
    | (extract_lets +onlyGivenNames v; clear_value v; revert v; intros)
    | with_reducible apply State.modPort_local
    | with_reducible refine Local.foldState (fun _ _ _ => ?_) ?_
    | with_reducible refine Local.foldl (fun _ _ _ => ?_) _ ?_
    | with_reducible refine Local.choice ?_ ?_
    | split
    | with_reducible apply Local.upd

theorem State.refuseReq_local {p : Nat} {a : State} {s : State} (uid : Nat) (h : Hdr) (code : Nat) (hk : Local p a s) : Local p a (State.refuseReq s p uid h code) := by
  unfold State.refuseReq
  repeat' first
    | with_reducible assumption
    | intro _
    | (extract_lets +onlyGivenNames v; refine Local.cut (v := v) ?_ (fun _ => ?_); rotate_left; clear_value v; revert v; intros; rotate_right; unfold v; clear v)
    | (extract_lets +onlyGivenNames v; clear_value v; revert v; intros)
    | with_reducible apply State.enqueue_local
    | with_reducible apply State.modPort_local
    | with_reducible refine Local.foldState (fun _ _ _ => ?_) ?_
    | with_reducible refine Local.foldl (fun _ _ _ => ?_) _ ?_
    | with_reducible refine Local.choice ?_ ?_
    | split
    | with_reducible apply Local.upd

theorem State.setReg_local {p : Nat} {a : State} {s : State} (o : Nat) (v : Word) (hk : Local p a s) : Local p a (State.setReg s o v) := by
  unfold State.setReg
  repeat' first
    | with_reducible assumption
    | intro _
    | (extract_lets +onlyGivenNames v; refine Local.cut (v := v) ?_ (fun _ => ?_); rotate_left; clear_value v; revert v; intros; rotate_right; unfold v; clear v)
    | (extract_lets +onlyGivenNames v; clear_value v; revert v; intros)
    | with_reducible refine Local.foldState (fun _ _ _ => ?_) ?_
    | with_reducible refine Local.foldl (fun _ _ _ => ?_) _ ?_
    | with_reducible refine Local.choice ?_ ?_
    | split
    | with_reducible apply Local.upd

theorem State.bump_local {p : Nat} {a : State} {s : State} (o : Nat) (hi : Nat) (lo : Nat) (n : Nat) (hk : Local p a s) : Local p a (State.bump s o hi lo n) := by
  unfold State.bump
  repeat' first
    | with_reducible assumption
    | intro _
    | (extract_lets +onlyGivenNames v; refine Local.cut (v := v) ?_ (fun _ => ?_); rotate_left; clear_value v; revert v; intros; rotate_right; unfold v; clear v)
    | (extract_lets +onlyGivenNames v; clear_value v; revert v; intros)
    | with_reducible apply State.setReg_local
    | with_reducible refine Local.foldState (fun _ _ _ => ?_) ?_
    | with_reducible refine Local.foldl (fun _ _ _ => ?_) _ ?_
    | with_reducible refine Local.choice ?_ ?_
    | split
    | with_reducible apply Local.upd

theorem State.drive_local {p : Nat} {a : State} {s : State} (o : Out) (hk : Local p a s) : Local p a (State.drive s o) := by
  unfold State.drive
  repeat' first
    | with_reducible assumption
    | intro _
    | (extract_lets +onlyGivenNames v; refine Local.cut (v := v) ?_ (fun _ => ?_); rotate_left; clear_value v; revert v; intros; rotate_right; unfold v; clear v)
    | (extract_lets +onlyGivenNames v; clear_value v; revert v; intros)
    | with_reducible refine Local.foldState (fun _ _ _ => ?_) ?_
    | with_reducible refine Local.foldl (fun _ _ _ => ?_) _ ?_
    | with_reducible refine Local.choice ?_ ?_
    | split
    | with_reducible apply Local.upd

theorem State.retWd_local {p : Nat} {a : State} {s : State} (hk : Local p a s) : Local p a (State.retWd s p) := by
  unfold State.retWd
  repeat' first
    | with_reducible assumption
    | intro _
    | (extract_lets +onlyGivenNames v; refine Local.cut (v := v) ?_ (fun _ => ?_); rotate_left; clear_value v; revert v; intros; rotate_right; unfold v; clear v)
    | (extract_lets +onlyGivenNames v; clear_value v; revert v; intros)
    | with_reducible apply State.drive_local
    | with_reducible apply State.modPort_local
    | with_reducible refine Local.foldState (fun _ _ _ => ?_) ?_
    | with_reducible refine Local.foldl (fun _ _ _ => ?_) _ ?_
    | with_reducible refine Local.choice ?_ ?_
    | split
    | with_reducible apply Local.upd

theorem State.discardBeats_local {p : Nat} {a : State} {s : State} (n : Nat) (hk : Local p a s) : Local p a (State.discardBeats s p n) := by
  unfold State.discardBeats
  repeat' first
    | with_reducible assumption
    | intro _
    | (extract_lets +onlyGivenNames v; refine Local.cut (v := v) ?_ (fun _ => ?_); rotate_left; clear_value v; revert v; intros; rotate_right; unfold v; clear v)
    | (extract_lets +onlyGivenNames v; clear_value v; revert v; intros)
    | with_reducible apply State.retWd_local
    | with_reducible refine Local.foldState (fun _ _ _ => ?_) ?_
    | with_reducible refine Local.foldl (fun _ _ _ => ?_) _ ?_
    | with_reducible refine Local.choice ?_ ?_
    | split
    | with_reducible apply Local.upd

theorem State.retReq_local {p : Nat} {a : State} {s : State} (hk : Local p a s) : Local p a (State.retReq s p) := by
  unfold State.retReq
  repeat' first
    | with_reducible assumption
    | intro _
    | (extract_lets +onlyGivenNames v; refine Local.cut (v := v) ?_ (fun _ => ?_); rotate_left; clear_value v; revert v; intros; rotate_right; unfold v; clear v)
    | (extract_lets +onlyGivenNames v; clear_value v; revert v; intros)
    | with_reducible apply State.drive_local
    | with_reducible apply State.modPort_local
    | with_reducible refine Local.foldState (fun _ _ _ => ?_) ?_
    | with_reducible refine Local.foldl (fun _ _ _ => ?_) _ ?_
    | with_reducible refine Local.choice ?_ ?_
    | split
    | with_reducible apply Local.upd

theorem State.vpcDrop_local {p : Nat} {a : State} {s : State} (las : List Nat) (hk : Local p a s) : Local p a (State.vpcDrop s p las) := by
  unfold State.vpcDrop
  repeat' first
    | with_reducible assumption
    | intro _
    | (extract_lets +onlyGivenNames v; refine Local.cut (v := v) ?_ (fun _ => ?_); rotate_left; clear_value v; revert v; intros; rotate_right; unfold v; clear v)
    | (extract_lets +onlyGivenNames v; clear_value v; revert v; intros)
    | with_reducible apply State.modPort_local
    | with_reducible refine Local.foldState (fun _ _ _ => ?_) ?_
    | with_reducible refine Local.foldl (fun _ _ _ => ?_) _ ?_
    | with_reducible refine Local.choice ?_ ?_
    | split
    | with_reducible apply Local.upd

theorem State.vpcInval_local {p : Nat} {a : State} {s : State} (las : List Nat) (hk : Local p a s) : Local p a (State.vpcInval s p las) := by
  unfold State.vpcInval
  repeat' first
    | with_reducible assumption
    | intro _
    | (extract_lets +onlyGivenNames v; refine Local.cut (v := v) ?_ (fun _ => ?_); rotate_left; clear_value v; revert v; intros; rotate_right; unfold v; clear v)
    | (extract_lets +onlyGivenNames v; clear_value v; revert v; intros)
    | with_reducible apply State.vpcDrop_local
    | with_reducible apply State.modPort_local
    | with_reducible refine Local.foldState (fun _ _ _ => ?_) ?_
    | with_reducible refine Local.foldl (fun _ _ _ => ?_) _ ?_
    | with_reducible refine Local.choice ?_ ?_
    | split
    | with_reducible apply Local.upd

theorem State.holdRgn_local {p : Nat} {a : State} {s : State} (n : Nat) (hk : Local p a s) : Local p a (State.holdRgn s n) := by
  unfold State.holdRgn
  repeat' first
    | with_reducible assumption
    | intro _
    | (extract_lets +onlyGivenNames v; refine Local.cut (v := v) ?_ (fun _ => ?_); rotate_left; clear_value v; revert v; intros; rotate_right; unfold v; clear v)
    | (extract_lets +onlyGivenNames v; clear_value v; revert v; intros)
    | with_reducible apply State.setReg_local
    | with_reducible refine Local.foldState (fun _ _ _ => ?_) ?_
    | with_reducible refine Local.foldl (fun _ _ _ => ?_) _ ?_
    | with_reducible refine Local.choice ?_ ?_
    | split
    | with_reducible apply Local.upd

theorem State.acceptData_local {p : Nat} {a : State} {s : State} (slot : Nat) (n : Nat) (r : Req) (hk : Local p a s) : Local p a (State.acceptData s p slot n r) := by
  unfold State.acceptData
  repeat' first
    | with_reducible assumption
    | intro _
    | (extract_lets +onlyGivenNames v; refine Local.cut (v := v) ?_ (fun _ => ?_); rotate_left; clear_value v; revert v; intros; rotate_right; unfold v; clear v)
    | (extract_lets +onlyGivenNames v; clear_value v; revert v; intros)
    | with_reducible apply State.enqueue_local
    | with_reducible apply State.vpcInval_local
    | with_reducible apply State.modPort_local
    | with_reducible apply State.holdRgn_local
    | with_reducible refine Local.foldState (fun _ _ _ => ?_) ?_
    | with_reducible refine Local.foldl (fun _ _ _ => ?_) _ ?_
    | with_reducible refine Local.choice ?_ ?_
    | split
    | with_reducible apply Local.upd

theorem State.acceptReq_local {p : Nat} {a : State} {s : State} (w : Held) (hk : Local p a s) : Local p a (State.acceptReq s p w) := by
  unfold State.acceptReq
  repeat' first
    | with_reducible assumption
    | intro _
    | (extract_lets +onlyGivenNames v; refine Local.cut (v := v) ?_ (fun _ => ?_); rotate_left; clear_value v; revert v; intros; rotate_right; unfold v; clear v)
    | (extract_lets +onlyGivenNames v; clear_value v; revert v; intros)
    | with_reducible apply State.enqueue_local
    | with_reducible apply State.acceptData_local
    | with_reducible apply State.holdRgn_local
    | with_reducible apply State.modPort_local
    | with_reducible refine Local.foldState (fun _ _ _ => ?_) ?_
    | with_reducible refine Local.foldl (fun _ _ _ => ?_) _ ?_
    | with_reducible refine Local.choice ?_ ?_
    | split
    | with_reducible apply Local.upd

theorem State.takeIn_local {p : Nat} {a : State} {s : State} (w : Held) (hk : Local p a s) : Local p a (State.takeIn s p w) := by
  unfold State.takeIn
  repeat' first
    | with_reducible assumption
    | intro _
    | (extract_lets +onlyGivenNames v; refine Local.cut (v := v) ?_ (fun _ => ?_); rotate_left; clear_value v; revert v; intros; rotate_right; unfold v; clear v)
    | (extract_lets +onlyGivenNames v; clear_value v; revert v; intros)
    | with_reducible apply State.refuseReq_local
    | with_reducible apply State.bump_local
    | with_reducible apply State.discardBeats_local
    | with_reducible apply State.retReq_local
    | with_reducible apply State.acceptReq_local
    | with_reducible apply State.modPort_local
    | with_reducible refine Local.foldState (fun _ _ _ => ?_) ?_
    | with_reducible refine Local.foldl (fun _ _ _ => ?_) _ ?_
    | with_reducible refine Local.choice ?_ ?_
    | split
    | with_reducible apply Local.upd

theorem State.takeHeader_local {p : Nat} {a : State} {s : State} (h : Hdr) (hk : Local p a s) : Local p a (State.takeHeader s p h) := by
  unfold State.takeHeader
  repeat' first
    | with_reducible assumption
    | intro _
    | (extract_lets +onlyGivenNames v; refine Local.cut (v := v) ?_ (fun _ => ?_); rotate_left; clear_value v; revert v; intros; rotate_right; unfold v; clear v)
    | (extract_lets +onlyGivenNames v; clear_value v; revert v; intros)
    | with_reducible apply State.modPort_local
    | with_reducible apply State.fresh_local
    | with_reducible apply State.takeIn_local
    | with_reducible refine Local.foldState (fun _ _ _ => ?_) ?_
    | with_reducible refine Local.foldl (fun _ _ _ => ?_) _ ?_
    | with_reducible refine Local.choice ?_ ?_
    | split
    | with_reducible apply Local.upd

theorem State.modReq_local {p : Nat} {a : State} {s : State} (uid : Nat) (f : Req → Req) (hk : Local p a s) : Local p a (State.modReq s p uid f) := by
  unfold State.modReq
  repeat' first
    | with_reducible assumption
    | intro _
    | (extract_lets +onlyGivenNames v; refine Local.cut (v := v) ?_ (fun _ => ?_); rotate_left; clear_value v; revert v; intros; rotate_right; unfold v; clear v)
    | (extract_lets +onlyGivenNames v; clear_value v; revert v; intros)
    | with_reducible apply State.modPort_local
    | with_reducible refine Local.foldState (fun _ _ _ => ?_) ?_
    | with_reducible refine Local.foldl (fun _ _ _ => ?_) _ ?_
    | with_reducible refine Local.choice ?_ ?_
    | split
    | with_reducible apply Local.upd

theorem State.setLine_local {p : Nat} {a : State} {s : State} (uid : Nat) (i : Nat) (j : Nat) (st : LineSt) (hk : Local p a s) : Local p a (State.setLine s p uid i j st) := by
  unfold State.setLine
  repeat' first
    | with_reducible assumption
    | intro _
    | (extract_lets +onlyGivenNames v; refine Local.cut (v := v) ?_ (fun _ => ?_); rotate_left; clear_value v; revert v; intros; rotate_right; unfold v; clear v)
    | (extract_lets +onlyGivenNames v; clear_value v; revert v; intros)
    | with_reducible apply State.modReq_local
    | with_reducible refine Local.foldState (fun _ _ _ => ?_) ?_
    | with_reducible refine Local.foldl (fun _ _ _ => ?_) _ ?_
    | with_reducible refine Local.choice ?_ ?_
    | split
    | with_reducible apply Local.upd

theorem State.setGroup_local {p : Nat} {a : State} {s : State} (g : Nat) (q : Group) (hk : Local p a s) : Local p a (State.setGroup s g q) := by
  unfold State.setGroup
  repeat' first
    | with_reducible assumption
    | intro _
    | (extract_lets +onlyGivenNames v; refine Local.cut (v := v) ?_ (fun _ => ?_); rotate_left; clear_value v; revert v; intros; rotate_right; unfold v; clear v)
    | (extract_lets +onlyGivenNames v; clear_value v; revert v; intros)
    | with_reducible refine Local.foldState (fun _ _ _ => ?_) ?_
    | with_reducible refine Local.foldl (fun _ _ _ => ?_) _ ?_
    | with_reducible refine Local.choice ?_ ?_
    | split
    | with_reducible apply Local.upd

theorem State.modGroup_local {p : Nat} {a : State} {s : State} (g : Nat) (f : Group → Group) (hk : Local p a s) : Local p a (State.modGroup s g f) := by
  unfold State.modGroup
  repeat' first
    | with_reducible assumption
    | intro _
    | (extract_lets +onlyGivenNames v; refine Local.cut (v := v) ?_ (fun _ => ?_); rotate_left; clear_value v; revert v; intros; rotate_right; unfold v; clear v)
    | (extract_lets +onlyGivenNames v; clear_value v; revert v; intros)
    | with_reducible apply State.setGroup_local
    | with_reducible refine Local.foldState (fun _ _ _ => ?_) ?_
    | with_reducible refine Local.foldl (fun _ _ _ => ?_) _ ?_
    | with_reducible refine Local.choice ?_ ?_
    | split
    | with_reducible apply Local.upd

theorem State.sendLine_local {p : Nat} {a : State} {s : State} (a1 : Access) (hk : Local p a s) : Local p a (State.sendLine s a1) := by
  unfold State.sendLine
  repeat' first
    | with_reducible assumption
    | intro _
    | (extract_lets +onlyGivenNames v; refine Local.cut (v := v) ?_ (fun _ => ?_); rotate_left; clear_value v; revert v; intros; rotate_right; unfold v; clear v)
    | (extract_lets +onlyGivenNames v; clear_value v; revert v; intros)
    | with_reducible apply State.modGroup_local
    | with_reducible refine Local.foldState (fun _ _ _ => ?_) ?_
    | with_reducible refine Local.foldl (fun _ _ _ => ?_) _ ?_
    | with_reducible refine Local.choice ?_ ?_
    | split
    | with_reducible apply Local.upd

theorem State.issueWriteLine_local {p : Nat} {a : State} (uid : Nat) (i : Nat) {s : State} (j : Nat) (hk : Local p a s) : Local p a (State.issueWriteLine p uid i s j) := by
  unfold State.issueWriteLine
  repeat' first
    | with_reducible assumption
    | intro _
    | (extract_lets +onlyGivenNames v; refine Local.cut (v := v) ?_ (fun _ => ?_); rotate_left; clear_value v; revert v; intros; rotate_right; unfold v; clear v)
    | (extract_lets +onlyGivenNames v; clear_value v; revert v; intros)
    | with_reducible apply State.setLine_local
    | with_reducible apply State.sendLine_local
    | with_reducible refine Local.foldState (fun _ _ _ => ?_) ?_
    | with_reducible refine Local.foldl (fun _ _ _ => ?_) _ ?_
    | with_reducible refine Local.choice ?_ ?_
    | split
    | with_reducible apply Local.upd

theorem State.issueBegun_local {p : Nat} {a : State} {s : State} (r : Req) (hk : Local p a s) : Local p a (State.issueBegun s p r) := by
  unfold State.issueBegun
  repeat' first
    | with_reducible assumption
    | intro _
    | (extract_lets +onlyGivenNames v; refine Local.cut (v := v) ?_ (fun _ => ?_); rotate_left; clear_value v; revert v; intros; rotate_right; unfold v; clear v)
    | (extract_lets +onlyGivenNames v; clear_value v; revert v; intros)
    | with_reducible apply State.issueWriteLine_local
    | with_reducible refine Local.foldState (fun _ _ _ => ?_) ?_
    | with_reducible refine Local.foldl (fun _ _ _ => ?_) _ ?_
    | with_reducible refine Local.choice ?_ ?_
    | split
    | with_reducible apply Local.upd

theorem State.answer_local {p : Nat} {a : State} {s : State} (uid : Nat) (code : Nat) (info : Word) (hk : Local p a s) : Local p a (State.answer s p uid code info) := by
  unfold State.answer
  repeat' first
    | with_reducible assumption
    | intro _
    | (extract_lets +onlyGivenNames v; refine Local.cut (v := v) ?_ (fun _ => ?_); rotate_left; clear_value v; revert v; intros; rotate_right; unfold v; clear v)
    | (extract_lets +onlyGivenNames v; clear_value v; revert v; intros)
    | with_reducible apply State.modReq_local
    | with_reducible refine Local.foldState (fun _ _ _ => ?_) ?_
    | with_reducible refine Local.foldl (fun _ _ _ => ?_) _ ?_
    | with_reducible refine Local.choice ?_ ?_
    | split
    | with_reducible apply Local.upd

theorem State.putLoad_local {p : Nat} {a : State} {s : State} (a1 : Nat) (b : Byte) (hk : Local p a s) : Local p a (State.putLoad s a1 b) := by
  unfold State.putLoad
  repeat' first
    | with_reducible assumption
    | intro _
    | (extract_lets +onlyGivenNames v; refine Local.cut (v := v) ?_ (fun _ => ?_); rotate_left; clear_value v; revert v; intros; rotate_right; unfold v; clear v)
    | (extract_lets +onlyGivenNames v; clear_value v; revert v; intros)
    | with_reducible refine Local.foldState (fun _ _ _ => ?_) ?_
    | with_reducible refine Local.foldl (fun _ _ _ => ?_) _ ?_
    | with_reducible refine Local.choice ?_ ?_
    | split
    | with_reducible apply Local.upd

theorem State.putLoadRun_local {p : Nat} {a : State} {s : State} (a1 : Nat) (x2 : List Byte) (hk : Local p a s) : Local p a (State.putLoadRun s a1 x2) := by
  induction x2 generalizing s a1 with
  | nil => exact hk
  | cons b bs ih =>
    unfold State.putLoadRun
    repeat' first
      | with_reducible assumption
      | intro _
      | (extract_lets +onlyGivenNames v; refine Local.cut (v := v) ?_ (fun _ => ?_); rotate_left; clear_value v; revert v; intros; rotate_right; unfold v; clear v)
      | (extract_lets +onlyGivenNames v; clear_value v; revert v; intros)
      | with_reducible apply State.putLoad_local
      | with_reducible apply ih
      | with_reducible refine Local.foldState (fun _ _ _ => ?_) ?_
      | with_reducible refine Local.foldl (fun _ _ _ => ?_) _ ?_
      | with_reducible refine Local.choice ?_ ?_
      | split
      | with_reducible apply Local.upd

theorem State.issueLoad_local {p : Nat} {a : State} {s : State} (r : Req) (hk : Local p a s) : Local p a (State.issueLoad s p r) := by
  unfold State.issueLoad
  repeat' first
    | with_reducible assumption
    | intro _
    | (extract_lets +onlyGivenNames v; refine Local.cut (v := v) ?_ (fun _ => ?_); rotate_left; clear_value v; revert v; intros; rotate_right; unfold v; clear v)
    | (extract_lets +onlyGivenNames v; clear_value v; revert v; intros)
    | with_reducible apply State.answer_local
    | with_reducible apply State.putLoadRun_local
    | with_reducible apply State.modReq_local
    | with_reducible refine Local.foldState (fun _ _ _ => ?_) ?_
    | with_reducible refine Local.foldl (fun _ _ _ => ?_) _ ?_
    | with_reducible refine Local.choice ?_ ?_
    | split
    | with_reducible apply Local.upd

theorem State.issueChecker_local {p : Nat} {a : State} {s : State} (r : Req) (hk : Local p a s) : Local p a (State.issueChecker s p r) := by
  unfold State.issueChecker
  repeat' first
    | with_reducible assumption
    | intro _
    | (extract_lets +onlyGivenNames v; refine Local.cut (v := v) ?_ (fun _ => ?_); rotate_left; clear_value v; revert v; intros; rotate_right; unfold v; clear v)
    | (extract_lets +onlyGivenNames v; clear_value v; revert v; intros)
    | with_reducible apply State.setLine_local
    | with_reducible apply State.sendLine_local
    | with_reducible refine Local.foldState (fun _ _ _ => ?_) ?_
    | with_reducible refine Local.foldl (fun _ _ _ => ?_) _ ?_
    | with_reducible refine Local.choice ?_ ?_
    | split
    | with_reducible apply Local.upd

theorem State.setPhase_local {p : Nat} {a : State} {s : State} (uid : Nat) (ph : Phase) (hk : Local p a s) : Local p a (State.setPhase s p uid ph) := by
  unfold State.setPhase
  repeat' first
    | with_reducible assumption
    | intro _
    | (extract_lets +onlyGivenNames v; refine Local.cut (v := v) ?_ (fun _ => ?_); rotate_left; clear_value v; revert v; intros; rotate_right; unfold v; clear v)
    | (extract_lets +onlyGivenNames v; clear_value v; revert v; intros)
    | with_reducible apply State.modReq_local
    | with_reducible refine Local.foldState (fun _ _ _ => ?_) ?_
    | with_reducible refine Local.foldl (fun _ _ _ => ?_) _ ?_
    | with_reducible refine Local.choice ?_ ?_
    | split
    | with_reducible apply Local.upd

theorem State.vpcTouch_local {p : Nat} {a : State} {s : State} (la : Nat) (data : List Byte) (hk : Local p a s) : Local p a (State.vpcTouch s p la data) := by
  unfold State.vpcTouch
  repeat' first
    | with_reducible assumption
    | intro _
    | (extract_lets +onlyGivenNames v; refine Local.cut (v := v) ?_ (fun _ => ?_); rotate_left; clear_value v; revert v; intros; rotate_right; unfold v; clear v)
    | (extract_lets +onlyGivenNames v; clear_value v; revert v; intros)
    | with_reducible apply State.modPort_local
    | with_reducible refine Local.foldState (fun _ _ _ => ?_) ?_
    | with_reducible refine Local.foldl (fun _ _ _ => ?_) _ ?_
    | with_reducible refine Local.choice ?_ ?_
    | split
    | with_reducible apply Local.upd

theorem State.issueReadLine_local {p : Nat} {a : State} (uid : Nat) (i : Nat) (fresh : Bool) {s : State} (j : Nat) (hk : Local p a s) : Local p a (State.issueReadLine p uid i fresh s j) := by
  unfold State.issueReadLine
  repeat' first
    | with_reducible assumption
    | intro _
    | (extract_lets +onlyGivenNames v; refine Local.cut (v := v) ?_ (fun _ => ?_); rotate_left; clear_value v; revert v; intros; rotate_right; unfold v; clear v)
    | (extract_lets +onlyGivenNames v; clear_value v; revert v; intros)
    | with_reducible apply State.bump_local
    | with_reducible apply State.vpcTouch_local
    | with_reducible apply State.setLine_local
    | with_reducible apply State.sendLine_local
    | with_reducible refine Local.foldState (fun _ _ _ => ?_) ?_
    | with_reducible refine Local.foldl (fun _ _ _ => ?_) _ ?_
    | with_reducible refine Local.choice ?_ ?_
    | split
    | with_reducible apply Local.upd

theorem State.issueReadRow_local {p : Nat} {a : State} (uid : Nat) (st : State × Bool) (i : Nat) (hk : Local p a st.1) :
    Local p a (State.issueReadRow p uid st i).1 := by
  unfold State.issueReadRow
  split
  · exact hk
  · split
    · exact hk
    · extract_lets w
      split
      · exact hk
      · split
        · exact State.modReq_local _ _ hk
        · exact Local.foldl (fun s j h => State.issueReadLine_local _ _ _ _ h) _ hk

theorem State.issueRead_local {p : Nat} {a s : State} (r : Req) (hk : Local p a s) : Local p a (State.issueRead s p r) := by
  unfold State.issueRead
  exact Local.foldl_fst (fun s x h => State.issueReadRow_local _ _ _ h) _ (State.modReq_local _ _ hk)

theorem State.sampleEpoch_local {p : Nat} {a : State} {s : State} (r : Req) (hk : Local p a s) : Local p a (State.sampleEpoch s p r) := by
  unfold State.sampleEpoch
  repeat' first
    | with_reducible assumption
    | intro _
    | (extract_lets +onlyGivenNames v; refine Local.cut (v := v) ?_ (fun _ => ?_); rotate_left; clear_value v; revert v; intros; rotate_right; unfold v; clear v)
    | (extract_lets +onlyGivenNames v; clear_value v; revert v; intros)
    | with_reducible apply State.modReq_local
    | with_reducible refine Local.foldState (fun _ _ _ => ?_) ?_
    | with_reducible refine Local.foldl (fun _ _ _ => ?_) _ ?_
    | with_reducible refine Local.choice ?_ ?_
    | split
    | with_reducible apply Local.upd

theorem State.filterRow_local {p : Nat} {a : State} {s : State} (uid : Nat) (i : Nat) (hk : Local p a s) : Local p a (State.filterRow s p uid i) := by
  unfold State.filterRow
  repeat' first
    | with_reducible assumption
    | intro _
    | (extract_lets +onlyGivenNames v; refine Local.cut (v := v) ?_ (fun _ => ?_); rotate_left; clear_value v; revert v; intros; rotate_right; unfold v; clear v)
    | (extract_lets +onlyGivenNames v; clear_value v; revert v; intros)
    | with_reducible apply State.bump_local
    | with_reducible apply State.modReq_local
    | with_reducible refine Local.foldState (fun _ _ _ => ?_) ?_
    | with_reducible refine Local.foldl (fun _ _ _ => ?_) _ ?_
    | with_reducible refine Local.choice ?_ ?_
    | split
    | with_reducible apply Local.upd

theorem State.issueWriteRow_local {p : Nat} {a : State} (uid : Nat) {s : State} (i : Nat) (hk : Local p a s) : Local p a (State.issueWriteRow p uid s i) := by
  unfold State.issueWriteRow
  repeat' first
    | with_reducible assumption
    | intro _
    | (extract_lets +onlyGivenNames v; refine Local.cut (v := v) ?_ (fun _ => ?_); rotate_left; clear_value v; revert v; intros; rotate_right; unfold v; clear v)
    | (extract_lets +onlyGivenNames v; clear_value v; revert v; intros)
    | with_reducible apply State.filterRow_local
    | with_reducible apply State.issueWriteLine_local
    | with_reducible refine Local.foldState (fun _ _ _ => ?_) ?_
    | with_reducible refine Local.foldl (fun _ _ _ => ?_) _ ?_
    | with_reducible refine Local.choice ?_ ?_
    | split
    | with_reducible apply Local.upd

theorem State.issueWrite_local {p : Nat} {a : State} {s : State} (r : Req) (hk : Local p a s) : Local p a (State.issueWrite s p r) := by
  unfold State.issueWrite
  repeat' first
    | with_reducible assumption
    | intro _
    | (extract_lets +onlyGivenNames v; refine Local.cut (v := v) ?_ (fun _ => ?_); rotate_left; clear_value v; revert v; intros; rotate_right; unfold v; clear v)
    | (extract_lets +onlyGivenNames v; clear_value v; revert v; intros)
    | with_reducible apply State.sampleEpoch_local
    | with_reducible apply State.issueWriteRow_local
    | with_reducible apply State.modReq_local
    | with_reducible refine Local.foldState (fun _ _ _ => ?_) ?_
    | with_reducible refine Local.foldl (fun _ _ _ => ?_) _ ?_
    | with_reducible refine Local.choice ?_ ?_
    | split
    | with_reducible apply Local.upd

theorem State.setFld_local {p : Nat} {a : State} {s : State} (o : Nat) (hi : Nat) (lo : Nat) (v : Nat) (hk : Local p a s) : Local p a (State.setFld s o hi lo v) := by
  unfold State.setFld
  repeat' first
    | with_reducible assumption
    | intro _
    | (extract_lets +onlyGivenNames v; refine Local.cut (v := v) ?_ (fun _ => ?_); rotate_left; clear_value v; revert v; intros; rotate_right; unfold v; clear v)
    | (extract_lets +onlyGivenNames v; clear_value v; revert v; intros)
    | with_reducible apply State.setReg_local
    | with_reducible refine Local.foldState (fun _ _ _ => ?_) ?_
    | with_reducible refine Local.foldl (fun _ _ _ => ?_) _ ?_
    | with_reducible refine Local.choice ?_ ?_
    | split
    | with_reducible apply Local.upd

theorem State.setBit_local {p : Nat} {a : State} {s : State} (o : Nat) (i : Nat) (hk : Local p a s) : Local p a (State.setBit s o i) := by
  unfold State.setBit
  repeat' first
    | with_reducible assumption
    | intro _
    | (extract_lets +onlyGivenNames v; refine Local.cut (v := v) ?_ (fun _ => ?_); rotate_left; clear_value v; revert v; intros; rotate_right; unfold v; clear v)
    | (extract_lets +onlyGivenNames v; clear_value v; revert v; intros)
    | with_reducible apply State.setFld_local
    | with_reducible refine Local.foldState (fun _ _ _ => ?_) ?_
    | with_reducible refine Local.foldl (fun _ _ _ => ?_) _ ?_
    | with_reducible refine Local.choice ?_ ?_
    | split
    | with_reducible apply Local.upd

theorem State.markWaits_local {p : Nat} {a : State} {s : State} (flag : Bool) (n : Nat) (hk : Local p a s) : Local p a (State.markWaits s flag n) := by
  unfold State.markWaits
  repeat' first
    | with_reducible assumption
    | intro _
    | (extract_lets +onlyGivenNames v; refine Local.cut (v := v) ?_ (fun _ => ?_); rotate_left; clear_value v; revert v; intros; rotate_right; unfold v; clear v)
    | (extract_lets +onlyGivenNames v; clear_value v; revert v; intros)
    | with_reducible refine Local.foldState (fun _ _ _ => ?_) ?_
    | with_reducible refine Local.foldl (fun _ _ _ => ?_) _ ?_
    | with_reducible refine Local.choice ?_ ?_
    | split
    | with_reducible apply Local.upd

theorem State.moved_local {p : Nat} {a : State} {s : State} (flag : Bool) (n : Nat) (hk : Local p a s) : Local p a (State.moved s flag n) := by
  unfold State.moved
  repeat' first
    | with_reducible assumption
    | intro _
    | (extract_lets +onlyGivenNames v; refine Local.cut (v := v) ?_ (fun _ => ?_); rotate_left; clear_value v; revert v; intros; rotate_right; unfold v; clear v)
    | (extract_lets +onlyGivenNames v; clear_value v; revert v; intros)
    | with_reducible refine Local.foldState (fun _ _ _ => ?_) ?_
    | with_reducible refine Local.foldl (fun _ _ _ => ?_) _ ?_
    | with_reducible refine Local.choice ?_ ?_
    | split
    | with_reducible apply Local.upd

theorem State.addCtr_local {p : Nat} {a : State} {s : State} (n : Nat) (v : Nat) (m : Modif) (hk : Local p a s) : Local p a (State.addCtr s n v m) := by
  unfold State.addCtr
  repeat' first
    | with_reducible assumption
    | intro _
    | (extract_lets +onlyGivenNames v; refine Local.cut (v := v) ?_ (fun _ => ?_); rotate_left; clear_value v; revert v; intros; rotate_right; unfold v; clear v)
    | (extract_lets +onlyGivenNames v; clear_value v; revert v; intros)
    | with_reducible apply State.setBit_local
    | with_reducible apply State.markWaits_local
    | with_reducible apply State.moved_local
    | with_reducible refine Local.foldState (fun _ _ _ => ?_) ?_
    | with_reducible refine Local.foldl (fun _ _ _ => ?_) _ ?_
    | with_reducible refine Local.choice ?_ ?_
    | split
    | with_reducible apply Local.upd

theorem State.evalAdd_local {a s out : State} {p n v : Nat} {r : Req} {q : Nat} (e : State.evalAdd s q r n v = some out)
    (hk : Local p a s) : Local p a out := by
  unfold State.evalAdd at e
  split at e
  · cases e
    exact State.addCtr_local _ _ _ hk
  · cases e

theorem State.putFlg_local {p : Nat} {a : State} {s : State} (n : Nat) (v : Bool) (m : Modif) (hk : Local p a s) : Local p a (State.putFlg s n v m) := by
  unfold State.putFlg
  repeat' first
    | with_reducible assumption
    | intro _
    | (extract_lets +onlyGivenNames v; refine Local.cut (v := v) ?_ (fun _ => ?_); rotate_left; clear_value v; revert v; intros; rotate_right; unfold v; clear v)
    | (extract_lets +onlyGivenNames v; clear_value v; revert v; intros)
    | with_reducible apply State.markWaits_local
    | with_reducible apply State.moved_local
    | with_reducible refine Local.foldState (fun _ _ _ => ?_) ?_
    | with_reducible refine Local.foldl (fun _ _ _ => ?_) _ ?_
    | with_reducible refine Local.choice ?_ ?_
    | split
    | with_reducible apply Local.upd

theorem State.observe_local {p : Nat} {a : State} {s : State} (flag : Bool) (phys : Nat) (m : Option Modif) (aport : Nat) (as : Nat) (hk : Local p a s) : Local p a (State.observe s flag phys m aport as) := by
  unfold State.observe
  repeat' first
    | with_reducible assumption
    | intro _
    | (extract_lets +onlyGivenNames v; refine Local.cut (v := v) ?_ (fun _ => ?_); rotate_left; clear_value v; revert v; intros; rotate_right; unfold v; clear v)
    | (extract_lets +onlyGivenNames v; clear_value v; revert v; intros)
    | with_reducible apply State.setReg_local
    | with_reducible apply State.bump_local
    | with_reducible refine Local.foldState (fun _ _ _ => ?_) ?_
    | with_reducible refine Local.foldl (fun _ _ _ => ?_) _ ?_
    | with_reducible refine Local.choice ?_ ?_
    | split
    | with_reducible apply Local.upd

theorem State.evalWait_local {p : Nat} {a : State} {s : State} (r : Req) (hk : Local p a s) : Local p a (State.evalWait s p r) := by
  unfold State.evalWait
  repeat' first
    | with_reducible assumption
    | intro _
    | (extract_lets +onlyGivenNames v; refine Local.cut (v := v) ?_ (fun _ => ?_); rotate_left; clear_value v; revert v; intros; rotate_right; unfold v; clear v)
    | (extract_lets +onlyGivenNames v; clear_value v; revert v; intros)
    | with_reducible apply State.observe_local
    | with_reducible apply State.answer_local
    | with_reducible apply State.setPhase_local
    | with_reducible refine Local.foldState (fun _ _ _ => ?_) ?_
    | with_reducible refine Local.foldl (fun _ _ _ => ?_) _ ?_
    | with_reducible refine Local.choice ?_ ?_
    | split
    | with_reducible apply Local.upd

theorem State.raise_local {p : Nat} {a : State} {s : State} (o : Nat) (hi : Nat) (lo : Nat) (v : Nat) (hk : Local p a s) : Local p a (State.raise s o hi lo v) := by
  unfold State.raise
  repeat' first
    | with_reducible assumption
    | intro _
    | (extract_lets +onlyGivenNames v; refine Local.cut (v := v) ?_ (fun _ => ?_); rotate_left; clear_value v; revert v; intros; rotate_right; unfold v; clear v)
    | (extract_lets +onlyGivenNames v; clear_value v; revert v; intros)
    | with_reducible apply State.setFld_local
    | with_reducible refine Local.foldState (fun _ _ _ => ?_) ?_
    | with_reducible refine Local.foldl (fun _ _ _ => ?_) _ ?_
    | with_reducible refine Local.choice ?_ ?_
    | split
    | with_reducible apply Local.upd

theorem State.evalRangeOpen_local {p : Nat} {a : State} {s : State} (r : Req) (hk : Local p a s) : Local p a (State.evalRangeOpen s p r) := by
  unfold State.evalRangeOpen
  repeat' first
    | with_reducible assumption
    | intro _
    | (extract_lets +onlyGivenNames v; refine Local.cut (v := v) ?_ (fun _ => ?_); rotate_left; clear_value v; revert v; intros; rotate_right; unfold v; clear v)
    | (extract_lets +onlyGivenNames v; clear_value v; revert v; intros)
    | with_reducible apply State.answer_local
    | with_reducible apply State.bump_local
    | with_reducible apply State.setReg_local
    | with_reducible apply State.raise_local
    | with_reducible apply State.modReq_local
    | with_reducible refine Local.foldState (fun _ _ _ => ?_) ?_
    | with_reducible refine Local.foldl (fun _ _ _ => ?_) _ ?_
    | with_reducible refine Local.choice ?_ ?_
    | split
    | with_reducible apply Local.upd

theorem State.evalRangeClose_local {p : Nat} {a : State} {s : State} (r : Req) (hk : Local p a s) : Local p a (State.evalRangeClose s p r) := by
  unfold State.evalRangeClose
  repeat' first
    | with_reducible assumption
    | intro _
    | (extract_lets +onlyGivenNames v; refine Local.cut (v := v) ?_ (fun _ => ?_); rotate_left; clear_value v; revert v; intros; rotate_right; unfold v; clear v)
    | (extract_lets +onlyGivenNames v; clear_value v; revert v; intros)
    | with_reducible apply State.answer_local
    | with_reducible apply State.setPhase_local
    | with_reducible refine Local.foldState (fun _ _ _ => ?_) ?_
    | with_reducible refine Local.foldl (fun _ _ _ => ?_) _ ?_
    | with_reducible refine Local.choice ?_ ?_
    | split
    | with_reducible apply Local.upd

theorem State.dropRgn_local {p : Nat} {a : State} {s : State} (n : Nat) (hk : Local p a s) : Local p a (State.dropRgn s n) := by
  unfold State.dropRgn
  repeat' first
    | with_reducible assumption
    | intro _
    | (extract_lets +onlyGivenNames v; refine Local.cut (v := v) ?_ (fun _ => ?_); rotate_left; clear_value v; revert v; intros; rotate_right; unfold v; clear v)
    | (extract_lets +onlyGivenNames v; clear_value v; revert v; intros)
    | with_reducible apply State.setFld_local
    | with_reducible refine Local.foldState (fun _ _ _ => ?_) ?_
    | with_reducible refine Local.foldl (fun _ _ _ => ?_) _ ?_
    | with_reducible refine Local.choice ?_ ?_
    | split
    | with_reducible apply Local.upd

theorem State.evalSync_local {p : Nat} {a : State} {s : State} (r : Req) (hk : Local p a s) : Local p a (State.evalSync s p r) := by
  unfold State.evalSync
  repeat' first
    | with_reducible assumption
    | intro _
    | (extract_lets +onlyGivenNames v; refine Local.cut (v := v) ?_ (fun _ => ?_); rotate_left; clear_value v; revert v; intros; rotate_right; unfold v; clear v)
    | (extract_lets +onlyGivenNames v; clear_value v; revert v; intros)
    | with_reducible apply State.answer_local
    | with_reducible apply State.setPhase_local
    | with_reducible apply State.bump_local
    | with_reducible apply State.putFlg_local
    | with_reducible apply State.observe_local
    | with_reducible apply State.evalWait_local
    | with_reducible apply State.evalRangeOpen_local
    | with_reducible apply State.evalRangeClose_local
    | with_reducible apply State.modReq_local
    | with_reducible apply State.dropRgn_local
    | refine State.evalAdd_local (by assumption) ?_
    | with_reducible refine Local.foldState (fun _ _ _ => ?_) ?_
    | with_reducible refine Local.foldl (fun _ _ _ => ?_) _ ?_
    | with_reducible refine Local.choice ?_ ?_
    | split
    | with_reducible apply Local.upd

theorem State.issue_local {p : Nat} {a : State} {s : State} (uid : Nat) (hk : Local p a s) : Local p a (State.issue p s uid) := by
  unfold State.issue
  repeat' first
    | with_reducible assumption
    | intro _
    | (extract_lets +onlyGivenNames v; refine Local.cut (v := v) ?_ (fun _ => ?_); rotate_left; clear_value v; revert v; intros; rotate_right; unfold v; clear v)
    | (extract_lets +onlyGivenNames v; clear_value v; revert v; intros)
    | with_reducible apply State.issueBegun_local
    | with_reducible apply State.issueLoad_local
    | with_reducible apply State.issueChecker_local
    | with_reducible apply State.setPhase_local
    | with_reducible apply State.issueRead_local
    | with_reducible apply State.issueWrite_local
    | with_reducible apply State.evalSync_local
    | with_reducible refine Local.foldState (fun _ _ _ => ?_) ?_
    | with_reducible refine Local.foldl (fun _ _ _ => ?_) _ ?_
    | with_reducible refine Local.choice ?_ ?_
    | split
    | with_reducible apply Local.upd

theorem State.recordRow_local {p : Nat} {a : State} (uid : Nat) {s : State} (i : Nat) (hk : Local p a s) : Local p a (State.recordRow p uid s i) := by
  unfold State.recordRow
  repeat' first
    | with_reducible assumption
    | intro _
    | (extract_lets +onlyGivenNames v; refine Local.cut (v := v) ?_ (fun _ => ?_); rotate_left; clear_value v; revert v; intros; rotate_right; unfold v; clear v)
    | (extract_lets +onlyGivenNames v; clear_value v; revert v; intros)
    | with_reducible refine Local.foldState (fun _ _ _ => ?_) ?_
    | with_reducible refine Local.foldl (fun _ _ _ => ?_) _ ?_
    | with_reducible refine Local.choice ?_ ?_
    | split
    | with_reducible apply Local.upd

theorem State.payBeats_local {p : Nat} {a : State} {s : State} (uid : Nat) (hk : Local p a s) : Local p a (State.payBeats p s uid) := by
  unfold State.payBeats
  repeat' first
    | with_reducible assumption
    | intro _
    | (extract_lets +onlyGivenNames v; refine Local.cut (v := v) ?_ (fun _ => ?_); rotate_left; clear_value v; revert v; intros; rotate_right; unfold v; clear v)
    | (extract_lets +onlyGivenNames v; clear_value v; revert v; intros)
    | with_reducible apply State.retWd_local
    | with_reducible apply State.modReq_local
    | with_reducible refine Local.foldState (fun _ _ _ => ?_) ?_
    | with_reducible refine Local.foldl (fun _ _ _ => ?_) _ ?_
    | with_reducible refine Local.choice ?_ ?_
    | split
    | with_reducible apply Local.upd

theorem State.driveRow_local {p : Nat} {a : State} {s : State} (tag : Nat) (code : Nat) (last : Bool) (data : List Byte) (hk : Local p a s) : Local p a (State.driveRow s p tag code last data) := by
  unfold State.driveRow
  repeat' first
    | with_reducible assumption
    | intro _
    | (extract_lets +onlyGivenNames v; refine Local.cut (v := v) ?_ (fun _ => ?_); rotate_left; clear_value v; revert v; intros; rotate_right; unfold v; clear v)
    | (extract_lets +onlyGivenNames v; clear_value v; revert v; intros)
    | with_reducible apply State.modPort_local
    | with_reducible apply State.drive_local
    | with_reducible refine Local.foldState (fun _ _ _ => ?_) ?_
    | with_reducible refine Local.foldl (fun _ _ _ => ?_) _ ?_
    | with_reducible refine Local.choice ?_ ?_
    | split
    | with_reducible apply Local.upd

theorem State.driveRows_local {p : Nat} {a : State} {s : State} (uid : Nat) (x3 : Nat) (hk : Local p a s) : Local p a (State.driveRows s p uid x3) := by
  induction x3 generalizing s uid with
  | zero => exact hk
  | succ n ih =>
    unfold State.driveRows
    repeat' first
      | with_reducible assumption
      | intro _
      | (extract_lets +onlyGivenNames v; refine Local.cut (v := v) ?_ (fun _ => ?_); rotate_left; clear_value v; revert v; intros; rotate_right; unfold v; clear v)
      | (extract_lets +onlyGivenNames v; clear_value v; revert v; intros)
      | with_reducible apply State.driveRow_local
      | with_reducible apply State.modReq_local
      | with_reducible apply ih
      | with_reducible refine Local.foldState (fun _ _ _ => ?_) ?_
      | with_reducible refine Local.foldl (fun _ _ _ => ?_) _ ?_
      | with_reducible refine Local.choice ?_ ?_
      | split
      | with_reducible apply Local.upd

theorem State.retire_local {p : Nat} {a : State} {s : State} (r : Req) (hk : Local p a s) : Local p a (State.retire s p r) := by
  unfold State.retire
  repeat' first
    | with_reducible assumption
    | intro _
    | (extract_lets +onlyGivenNames v; refine Local.cut (v := v) ?_ (fun _ => ?_); rotate_left; clear_value v; revert v; intros; rotate_right; unfold v; clear v)
    | (extract_lets +onlyGivenNames v; clear_value v; revert v; intros)
    | with_reducible apply State.modPort_local
    | with_reducible apply State.dropRgn_local
    | with_reducible refine Local.foldState (fun _ _ _ => ?_) ?_
    | with_reducible refine Local.foldl (fun _ _ _ => ?_) _ ?_
    | with_reducible refine Local.choice ?_ ?_
    | split
    | with_reducible apply Local.upd

theorem State.drainR_local {p : Nat} {a : State} {s : State} (x2 : Nat) (hk : Local p a s) : Local p a (State.drainR s p x2) := by
  induction x2 generalizing s with
  | zero => exact hk
  | succ n ih =>
    unfold State.drainR
    repeat' first
      | with_reducible assumption
      | intro _
      | (extract_lets +onlyGivenNames v; refine Local.cut (v := v) ?_ (fun _ => ?_); rotate_left; clear_value v; revert v; intros; rotate_right; unfold v; clear v)
      | (extract_lets +onlyGivenNames v; clear_value v; revert v; intros)
      | with_reducible apply State.driveRow_local
      | with_reducible apply State.driveRows_local
      | with_reducible apply State.retire_local
      | with_reducible apply ih
      | with_reducible refine Local.foldState (fun _ _ _ => ?_) ?_
      | with_reducible refine Local.foldl (fun _ _ _ => ?_) _ ?_
      | with_reducible refine Local.choice ?_ ?_
      | split
      | with_reducible apply Local.upd

theorem State.tellWait_local {p : Nat} {a : State} {s : State} (uid : Nat) (hk : Local p a s) : Local p a (State.tellWait s uid) := by
  unfold State.tellWait
  repeat' first
    | with_reducible assumption
    | intro _
    | (extract_lets +onlyGivenNames v; refine Local.cut (v := v) ?_ (fun _ => ?_); rotate_left; clear_value v; revert v; intros; rotate_right; unfold v; clear v)
    | (extract_lets +onlyGivenNames v; clear_value v; revert v; intros)
    | with_reducible refine Local.foldState (fun _ _ _ => ?_) ?_
    | with_reducible refine Local.foldl (fun _ _ _ => ?_) _ ?_
    | with_reducible refine Local.choice ?_ ?_
    | split
    | with_reducible apply Local.upd

theorem State.drainA_local {p : Nat} {a : State} {s : State} (x2 : Nat) (hk : Local p a s) : Local p a (State.drainA s p x2) := by
  induction x2 generalizing s with
  | zero => exact hk
  | succ n ih =>
    unfold State.drainA
    repeat' first
      | with_reducible assumption
      | intro _
      | (extract_lets +onlyGivenNames v; refine Local.cut (v := v) ?_ (fun _ => ?_); rotate_left; clear_value v; revert v; intros; rotate_right; unfold v; clear v)
      | (extract_lets +onlyGivenNames v; clear_value v; revert v; intros)
      | with_reducible apply State.drive_local
      | with_reducible apply State.modPort_local
      | with_reducible apply State.retire_local
      | with_reducible apply State.tellWait_local
      | with_reducible apply ih
      | with_reducible refine Local.foldState (fun _ _ _ => ?_) ?_
      | with_reducible refine Local.foldl (fun _ _ _ => ?_) _ ?_
      | with_reducible refine Local.choice ?_ ?_
      | split
      | with_reducible apply Local.upd

theorem State.drain_local {p : Nat} {a : State} {s : State} (hk : Local p a s) : Local p a (State.drain s p) := by
  unfold State.drain
  repeat' first
    | with_reducible assumption
    | intro _
    | (extract_lets +onlyGivenNames v; refine Local.cut (v := v) ?_ (fun _ => ?_); rotate_left; clear_value v; revert v; intros; rotate_right; unfold v; clear v)
    | (extract_lets +onlyGivenNames v; clear_value v; revert v; intros)
    | with_reducible apply State.drainR_local
    | with_reducible apply State.drainA_local
    | with_reducible refine Local.foldState (fun _ _ _ => ?_) ?_
    | with_reducible refine Local.foldl (fun _ _ _ => ?_) _ ?_
    | with_reducible refine Local.choice ?_ ?_
    | split
    | with_reducible apply Local.upd

theorem State.settle_local {p : Nat} {a s : State} (hk : Local p a s) : Local p a (State.settle s p) := by
  unfold State.settle
  extract_lets pass
  have hp : ∀ t, Local p a t → Local p a (pass t) := by
    intro t h
    refine State.drain_local (Local.foldl (fun u r h => ?_) _ (Local.foldl (fun u r h => ?_) _
      (Local.foldl (fun u r h => State.issue_local _ h) _ h)))
    · split
      · exact h
      · exact State.payBeats_local _ h
    · split
      · exact Local.foldl (fun _ _ h => State.recordRow_local _ _ h) _ h
      · exact h
  exact hp _ (hp _ hk)

theorem State.setEntry_local {p : Nat} {a : State} {s : State} (e : Option Entry) (hk : Local p a s) : Local p a (State.setEntry s e) := by
  unfold State.setEntry
  repeat' first
    | with_reducible assumption
    | intro _
    | (extract_lets +onlyGivenNames v; refine Local.cut (v := v) ?_ (fun _ => ?_); rotate_left; clear_value v; revert v; intros; rotate_right; unfold v; clear v)
    | (extract_lets +onlyGivenNames v; clear_value v; revert v; intros)
    | with_reducible apply State.setFld_local
    | with_reducible refine Local.foldState (fun _ _ _ => ?_) ?_
    | with_reducible refine Local.foldl (fun _ _ _ => ?_) _ ?_
    | with_reducible refine Local.choice ?_ ?_
    | split
    | with_reducible apply Local.upd

theorem State.thaw_local {p : Nat} {a : State} {s : State} (hk : Local p a s) : Local p a (State.thaw s) := by
  unfold State.thaw
  repeat' first
    | with_reducible assumption
    | intro _
    | (extract_lets +onlyGivenNames v; refine Local.cut (v := v) ?_ (fun _ => ?_); rotate_left; clear_value v; revert v; intros; rotate_right; unfold v; clear v)
    | (extract_lets +onlyGivenNames v; clear_value v; revert v; intros)
    | with_reducible apply State.setFld_local
    | with_reducible refine Local.foldState (fun _ _ _ => ?_) ?_
    | with_reducible refine Local.foldl (fun _ _ _ => ?_) _ ?_
    | with_reducible refine Local.choice ?_ ?_
    | split
    | with_reducible apply Local.upd

theorem State.advanceDone_local {p : Nat} {a : State} {s : State} (x1 : Nat) (hk : Local p a s) : Local p a (State.advanceDone s x1) := by
  induction x1 generalizing s with
  | zero => exact hk
  | succ n ih =>
    unfold State.advanceDone
    repeat' first
      | with_reducible assumption
      | intro _
      | (extract_lets +onlyGivenNames v; refine Local.cut (v := v) ?_ (fun _ => ?_); rotate_left; clear_value v; revert v; intros; rotate_right; unfold v; clear v)
      | (extract_lets +onlyGivenNames v; clear_value v; revert v; intros)
      | with_reducible apply State.setFld_local
      | with_reducible apply ih
      | with_reducible refine Local.foldState (fun _ _ _ => ?_) ?_
      | with_reducible refine Local.foldl (fun _ _ _ => ?_) _ ?_
      | with_reducible refine Local.choice ?_ ?_
      | split
      | with_reducible apply Local.upd

theorem State.reply_local {p : Nat} {a : State} {s : State} (n : Nat) (code : Nat) (detail : Nat) (words : List Nat) (hk : Local p a s) : Local p a (State.reply s n code detail words) := by
  unfold State.reply
  repeat' first
    | with_reducible assumption
    | intro _
    | (extract_lets +onlyGivenNames v; refine Local.cut (v := v) ?_ (fun _ => ?_); rotate_left; clear_value v; revert v; intros; rotate_right; unfold v; clear v)
    | (extract_lets +onlyGivenNames v; clear_value v; revert v; intros)
    | with_reducible apply State.setReg_local
    | with_reducible apply State.setBit_local
    | with_reducible apply State.advanceDone_local
    | with_reducible refine Local.foldState (fun _ _ _ => ?_) ?_
    | with_reducible refine Local.foldl (fun _ _ _ => ?_) _ ?_
    | with_reducible refine Local.choice ?_ ?_
    | split
    | with_reducible apply Local.upd

theorem State.outcome_local {p : Nat} {a : State} {s : State} (n : Nat) (code : Nat) (k : Nat) (hk : Local p a s) : Local p a (State.outcome s n code k) := by
  unfold State.outcome
  repeat' first
    | with_reducible assumption
    | intro _
    | (extract_lets +onlyGivenNames v; refine Local.cut (v := v) ?_ (fun _ => ?_); rotate_left; clear_value v; revert v; intros; rotate_right; unfold v; clear v)
    | (extract_lets +onlyGivenNames v; clear_value v; revert v; intros)
    | with_reducible apply State.reply_local
    | with_reducible refine Local.foldState (fun _ _ _ => ?_) ?_
    | with_reducible refine Local.foldl (fun _ _ _ => ?_) _ ?_
    | with_reducible refine Local.choice ?_ ?_
    | split
    | with_reducible apply Local.upd

theorem State.abandonEntry_local {p : Nat} {a : State} {s : State} (hk : Local p a s) : Local p a (State.abandonEntry s) := by
  unfold State.abandonEntry
  repeat' first
    | with_reducible assumption
    | intro _
    | (extract_lets +onlyGivenNames v; refine Local.cut (v := v) ?_ (fun _ => ?_); rotate_left; clear_value v; revert v; intros; rotate_right; unfold v; clear v)
    | (extract_lets +onlyGivenNames v; clear_value v; revert v; intros)
    | with_reducible apply State.bump_local
    | with_reducible apply State.setEntry_local
    | with_reducible apply State.thaw_local
    | with_reducible apply State.outcome_local
    | with_reducible refine Local.foldState (fun _ _ _ => ?_) ?_
    | with_reducible refine Local.foldl (fun _ _ _ => ?_) _ ?_
    | with_reducible refine Local.choice ?_ ?_
    | split
    | with_reducible apply Local.upd

theorem State.touch_local {p : Nat} {a : State} {s : State} (hk : Local p a s) : Local p a (State.touch s) := by
  unfold State.touch
  repeat' first
    | with_reducible assumption
    | intro _
    | (extract_lets +onlyGivenNames v; refine Local.cut (v := v) ?_ (fun _ => ?_); rotate_left; clear_value v; revert v; intros; rotate_right; unfold v; clear v)
    | (extract_lets +onlyGivenNames v; clear_value v; revert v; intros)
    | with_reducible apply State.abandonEntry_local
    | with_reducible refine Local.foldState (fun _ _ _ => ?_) ?_
    | with_reducible refine Local.foldl (fun _ _ _ => ?_) _ ?_
    | with_reducible refine Local.choice ?_ ?_
    | split
    | with_reducible apply Local.upd

end Sys2Proof.Machine
end

