-- ==== Sys2Proof/Laws/Requests.lean ====
section
/-! SUPPORT. What a port does with a request it takes at once: the state it is judged in, and the three ways on from there. -/
namespace Sys2Proof.Machine

/-- With no power-state entry under way an arrival only breaks the quiet of the turn. -/
theorem State.touch_of {s : State} (h : s.pw.entry = none) : s.touch = { s with pw := { s.pw with quiet := false } } := by
  simp [State.touch, State.abandonEntry, h]

/-- What a verdict depends on. -/
theorem State.verdict_congr {s t : State} {p : Nat} (regs : t.regs = s.regs) (build : t.build = s.build) (iid : t.iid = s.iid)
    (b : t.bound = s.bound) (f : t.filters = s.filters) (sl : t.slices = s.slices)
    (fp : (t.port p).fence = (s.port p).fence) (f10 : (t.port 10).fence = (s.port 10).fence)
    (st : (t.port p).streams = (s.port p).streams) (rq : (t.port p).reqs = (s.port p).reqs) (h : Hdr) : t.verdict p h = s.verdict p h := by
  have e1 : ∀ k, (t.port p).stream k = (s.port p).stream k := fun k => by simp [Port.stream, st]
  have e2 : ∀ k, (t.port p).stepsAsked k = (s.port p).stepsAsked k := fun k => by simp [Port.stepsAsked, rq]
  unfold State.verdict State.dataVerdict
  rw [fp, f10]
  simp only [e1, e2]
  cases s; cases t; simp only at regs build iid b f sl; subst regs build iid b f sl
  rfl

/-- The state in which a header that has just come is judged. -/
def State.judged (s : State) (p : Nat) (h : Hdr) : State :=
  let bs := s.beatShape p h
  (State.fresh { s with pw := { s.pw with quiet := false } }).modPort p fun q =>
    { q with reqCrd := q.reqCrd - 1,
             due := if bs.1 * bs.2 = 0 then q.due
               else q.due ++ [{ uid := s.uid, ctx := hCtx h, tag := hTag h, need := bs.1 * bs.2, refused := false }] }

theorem State.judged_port (s : State) (p : Nat) (h : Hdr) : (s.judged p h).port p =
    { s.port p with
        reqCrd := (s.port p).reqCrd - 1,
        due := if (s.beatShape p h).1 * (s.beatShape p h).2 = 0 then (s.port p).due
          else (s.port p).due ++
            [{ uid := s.uid, ctx := hCtx h, tag := hTag h, need := (s.beatShape p h).1 * (s.beatShape p h).2, refused := false }] } :=
  State.port_modPort_same _ p _

theorem State.judged_other (s : State) (p : Nat) (h : Hdr) (q : Nat) (n : q ≠ p) : (s.judged p h).port q = s.port q :=
  State.port_modPort_other _ p q _ n

/-- What a header that has just come carries into acceptance. -/
def State.heldHdr (s : State) (p : Nat) (h : Hdr) : Held :=
  { uid := s.uid, h := h, beats := [], shape := s.beatShape p h, ended := false }

/-- Taking a header in changes no verdict. -/
theorem State.verdict_judged (s : State) (p : Nat) (h k : Hdr) : (s.judged p h).verdict p k = s.verdict p k := by
  apply State.verdict_congr (s := s) (t := s.judged p h) rfl rfl rfl rfl rfl rfl
  · rw [State.judged_port]
  · by_cases e : (10 : Nat) = p
    · subst e; rw [State.judged_port]
    · rw [State.judged_other _ _ _ _ e]
  · rw [State.judged_port]
  · rw [State.judged_port]

theorem State.takeHeader_judged {s : State} {p : Nat} (k : s.Takes p) (h : Hdr) :
    s.touch.takeHeader p h = (s.judged p h).takeIn p (s.heldHdr p h) := by
  rw [State.touch_of k.entry]
  have hp : ((s.judged p h).port p).inq = [] := by rw [State.judged_port]; exact k.inq
  unfold State.takeHeader
  exact if_pos hp

theorem State.receive_takes {s : State} {p : Nat} (k : s.Takes p) (h : Hdr) :
    s.receive p h = ((s.judged p h).takeIn p (s.heldHdr p h)).settle p := by
  have hc : (s.port p).reqCrd ≠ 0 := by have := k.credit; omega
  unfold State.receive
  rw [if_neg (by simp [k.isOpen]), if_neg hc, State.takeHeader_judged k]

/-- A header that is refused. -/
theorem State.receive_refused {s : State} {p : Nat} (k : s.Takes p) (h : Hdr) {c : Nat} (v : s.verdict p h = .refuse c) :
    s.receive p h = ((((if isAcc (hOpc h) && c == 1 && (s.judged p h).filterFull p h then (s.judged p h).bump oAccFull 31 0 1
      else s.judged p h).refuseReq p s.uid h c).retReq p)).settle p := by
  rw [State.receive_takes k]
  unfold State.takeIn
  simp [State.heldHdr, State.verdict_judged, v, State.discardBeats, foldState]

/-- A header that passes the checks. -/
theorem State.receive_passed {s : State} {p : Nat} (k : s.Takes p) (h : Hdr) (v : s.verdict p h = .pass) :
    s.receive p h = (((s.judged p h).acceptReq p (s.heldHdr p h)).retReq p).settle p := by
  rw [State.receive_takes k]
  unfold State.takeIn
  simp [State.heldHdr, State.verdict_judged, v]

/-- A header held for a context miss. -/
theorem State.receive_missed {s : State} {p : Nat} (k : s.Takes p) (h : Hdr) (v : s.verdict p h = .miss) :
    s.receive p h = ((s.judged p h).modPort p fun q =>
      { q with inq := q.inq ++ [(s.heldHdr p h)] }).settle p := by
  rw [State.receive_takes k]
  unfold State.takeIn
  simp [State.heldHdr, State.verdict_judged, v]

/-- A port with nothing accepted has nothing to do. -/
theorem State.settle_none {s : State} {p : Nat} (h : (s.port p).reqs = []) : s.settle p = s := by
  simp [State.settle, h, State.drain, State.drainA, State.drainR]

/-- Each row of Table 3.7 is a header received with the row's opcode. -/
theorem requests_are_received : ∀ e ∈ requestRows, ∀ p h s, exec (e.2 p h) s = .next (s.receive p (rowHdr e.1 h)) := by
  intro e he
  simp only [requestRows, List.mem_cons, List.not_mem_nil, or_false] at he
  rcases he with rfl | rfl | rfl | rfl | rfl | rfl | rfl | rfl | rfl | rfl | rfl | rfl | rfl | rfl | rfl | rfl | rfl | rfl | rfl | rfl | rfl | rfl <;> (intros; rfl)

end Sys2Proof.Machine
end

