-- ==== Sys2Proof/Laws/SteadyA.lean ====
section
/-! SUPPORT. `Steady` for the operations of the block, first part: one lemma each, for the provers to cite. -/
namespace Sys2Proof.Machine

theorem State.setReg_steady {a : State} {s : State} (o : Nat) (v : Word) (hk : Steady a s) : Steady a (State.setReg s o v) := by
  unfold State.setReg
  repeat' first
    | with_reducible assumption
    | intro _
    | (extract_lets +onlyGivenNames v; refine Steady.cut (v := v) ?_ (fun _ => ?_); rotate_left; clear_value v; revert v; intros; rotate_right; unfold v; clear v)
    | (extract_lets +onlyGivenNames v; clear_value v; revert v; intros)
    | with_reducible refine Steady.foldState (fun _ _ _ => ?_) ?_
    | with_reducible refine Steady.foldl (fun _ _ _ => ?_) _ ?_
    | with_reducible refine Steady.choice ?_ ?_
    | split
    | with_reducible apply Steady.upd

theorem State.bump_steady {a : State} {s : State} (o : Nat) (hi : Nat) (lo : Nat) (n : Nat) (hk : Steady a s) : Steady a (State.bump s o hi lo n) := by
  unfold State.bump
  repeat' first
    | with_reducible assumption
    | intro _
    | (extract_lets +onlyGivenNames v; refine Steady.cut (v := v) ?_ (fun _ => ?_); rotate_left; clear_value v; revert v; intros; rotate_right; unfold v; clear v)
    | (extract_lets +onlyGivenNames v; clear_value v; revert v; intros)
    | with_reducible apply State.setReg_steady
    | with_reducible refine Steady.foldState (fun _ _ _ => ?_) ?_
    | with_reducible refine Steady.foldl (fun _ _ _ => ?_) _ ?_
    | with_reducible refine Steady.choice ?_ ?_
    | split
    | with_reducible apply Steady.upd

theorem State.setFld_steady {a : State} {s : State} (o : Nat) (hi : Nat) (lo : Nat) (v : Nat) (hk : Steady a s) : Steady a (State.setFld s o hi lo v) := by
  unfold State.setFld
  repeat' first
    | with_reducible assumption
    | intro _
    | (extract_lets +onlyGivenNames v; refine Steady.cut (v := v) ?_ (fun _ => ?_); rotate_left; clear_value v; revert v; intros; rotate_right; unfold v; clear v)
    | (extract_lets +onlyGivenNames v; clear_value v; revert v; intros)
    | with_reducible apply State.setReg_steady
    | with_reducible refine Steady.foldState (fun _ _ _ => ?_) ?_
    | with_reducible refine Steady.foldl (fun _ _ _ => ?_) _ ?_
    | with_reducible refine Steady.choice ?_ ?_
    | split
    | with_reducible apply Steady.upd

theorem State.setEntry_steady {a : State} {s : State} (e : Option Entry) (hk : Steady a s) : Steady a (State.setEntry s e) := by
  unfold State.setEntry
  repeat' first
    | with_reducible assumption
    | intro _
    | (extract_lets +onlyGivenNames v; refine Steady.cut (v := v) ?_ (fun _ => ?_); rotate_left; clear_value v; revert v; intros; rotate_right; unfold v; clear v)
    | (extract_lets +onlyGivenNames v; clear_value v; revert v; intros)
    | with_reducible apply State.setFld_steady
    | with_reducible refine Steady.foldState (fun _ _ _ => ?_) ?_
    | with_reducible refine Steady.foldl (fun _ _ _ => ?_) _ ?_
    | with_reducible refine Steady.choice ?_ ?_
    | split
    | with_reducible apply Steady.upd

theorem State.thaw_steady {a : State} {s : State} (hk : Steady a s) : Steady a (State.thaw s) := by
  unfold State.thaw
  repeat' first
    | with_reducible assumption
    | intro _
    | (extract_lets +onlyGivenNames v; refine Steady.cut (v := v) ?_ (fun _ => ?_); rotate_left; clear_value v; revert v; intros; rotate_right; unfold v; clear v)
    | (extract_lets +onlyGivenNames v; clear_value v; revert v; intros)
    | with_reducible apply State.setFld_steady
    | with_reducible refine Steady.foldState (fun _ _ _ => ?_) ?_
    | with_reducible refine Steady.foldl (fun _ _ _ => ?_) _ ?_
    | with_reducible refine Steady.choice ?_ ?_
    | split
    | with_reducible apply Steady.upd

theorem State.setBit_steady {a : State} {s : State} (o : Nat) (i : Nat) (hk : Steady a s) : Steady a (State.setBit s o i) := by
  unfold State.setBit
  repeat' first
    | with_reducible assumption
    | intro _
    | (extract_lets +onlyGivenNames v; refine Steady.cut (v := v) ?_ (fun _ => ?_); rotate_left; clear_value v; revert v; intros; rotate_right; unfold v; clear v)
    | (extract_lets +onlyGivenNames v; clear_value v; revert v; intros)
    | with_reducible apply State.setFld_steady
    | with_reducible refine Steady.foldState (fun _ _ _ => ?_) ?_
    | with_reducible refine Steady.foldl (fun _ _ _ => ?_) _ ?_
    | with_reducible refine Steady.choice ?_ ?_
    | split
    | with_reducible apply Steady.upd

theorem State.advanceDone_steady {a : State} {s : State} (x1 : Nat) (hk : Steady a s) : Steady a (State.advanceDone s x1) := by
  induction x1 generalizing s with
  | zero => exact hk
  | succ n ih =>
    unfold State.advanceDone
    repeat' first
      | with_reducible assumption
      | intro _
      | (extract_lets +onlyGivenNames v; refine Steady.cut (v := v) ?_ (fun _ => ?_); rotate_left; clear_value v; revert v; intros; rotate_right; unfold v; clear v)
      | (extract_lets +onlyGivenNames v; clear_value v; revert v; intros)
      | with_reducible apply State.setFld_steady
      | with_reducible apply ih
      | with_reducible refine Steady.foldState (fun _ _ _ => ?_) ?_
      | with_reducible refine Steady.foldl (fun _ _ _ => ?_) _ ?_
      | with_reducible refine Steady.choice ?_ ?_
      | split
      | with_reducible apply Steady.upd

theorem State.reply_steady {a : State} {s : State} (n : Nat) (code : Nat) (detail : Nat) (words : List Nat) (hk : Steady a s) : Steady a (State.reply s n code detail words) := by
  unfold State.reply
  repeat' first
    | with_reducible assumption
    | intro _
    | (extract_lets +onlyGivenNames v; refine Steady.cut (v := v) ?_ (fun _ => ?_); rotate_left; clear_value v; revert v; intros; rotate_right; unfold v; clear v)
    | (extract_lets +onlyGivenNames v; clear_value v; revert v; intros)
    | with_reducible apply State.setReg_steady
    | with_reducible apply State.setBit_steady
    | with_reducible apply State.advanceDone_steady
    | with_reducible refine Steady.foldState (fun _ _ _ => ?_) ?_
    | with_reducible refine Steady.foldl (fun _ _ _ => ?_) _ ?_
    | with_reducible refine Steady.choice ?_ ?_
    | split
    | with_reducible apply Steady.upd

theorem State.outcome_steady {a : State} {s : State} (n : Nat) (code : Nat) (k : Nat) (hk : Steady a s) : Steady a (State.outcome s n code k) := by
  unfold State.outcome
  repeat' first
    | with_reducible assumption
    | intro _
    | (extract_lets +onlyGivenNames v; refine Steady.cut (v := v) ?_ (fun _ => ?_); rotate_left; clear_value v; revert v; intros; rotate_right; unfold v; clear v)
    | (extract_lets +onlyGivenNames v; clear_value v; revert v; intros)
    | with_reducible apply State.reply_steady
    | with_reducible refine Steady.foldState (fun _ _ _ => ?_) ?_
    | with_reducible refine Steady.foldl (fun _ _ _ => ?_) _ ?_
    | with_reducible refine Steady.choice ?_ ?_
    | split
    | with_reducible apply Steady.upd

theorem State.abandonEntry_steady {a : State} {s : State} (hk : Steady a s) : Steady a (State.abandonEntry s) := by
  unfold State.abandonEntry
  repeat' first
    | with_reducible assumption
    | intro _
    | (extract_lets +onlyGivenNames v; refine Steady.cut (v := v) ?_ (fun _ => ?_); rotate_left; clear_value v; revert v; intros; rotate_right; unfold v; clear v)
    | (extract_lets +onlyGivenNames v; clear_value v; revert v; intros)
    | with_reducible apply State.bump_steady
    | with_reducible apply State.setEntry_steady
    | with_reducible apply State.thaw_steady
    | with_reducible apply State.outcome_steady
    | with_reducible refine Steady.foldState (fun _ _ _ => ?_) ?_
    | with_reducible refine Steady.foldl (fun _ _ _ => ?_) _ ?_
    | with_reducible refine Steady.choice ?_ ?_
    | split
    | with_reducible apply Steady.upd

theorem overLines_steady {a : State} (f : State → Nat → State) (a1 : Nat) (b : Nat) {s : State} (hf : ∀ y0 y1, Steady a y0 → Steady a (f y0 y1)) (hk : Steady a s) : Steady a (overLines f a1 b s) := by
  unfold overLines
  repeat' first
    | with_reducible assumption
    | intro _
    | (extract_lets +onlyGivenNames v; refine Steady.cut (v := v) ?_ (fun _ => ?_); rotate_left; clear_value v; revert v; intros; rotate_right; unfold v; clear v)
    | (extract_lets +onlyGivenNames v; clear_value v; revert v; intros)
    | with_reducible apply hf
    | with_reducible refine Steady.foldState (fun _ _ _ => ?_) ?_
    | with_reducible refine Steady.foldl (fun _ _ _ => ?_) _ ?_
    | with_reducible refine Steady.choice ?_ ?_
    | split
    | with_reducible apply Steady.upd

theorem State.restoreLine_steady {a : State} {s : State} (sl : Nat) (pb : Nat) (ix : Nat) (hk : Steady a s) : Steady a (State.restoreLine s sl pb ix) := by
  unfold State.restoreLine
  repeat' first
    | with_reducible assumption
    | intro _
    | (extract_lets +onlyGivenNames v; refine Steady.cut (v := v) ?_ (fun _ => ?_); rotate_left; clear_value v; revert v; intros; rotate_right; unfold v; clear v)
    | (extract_lets +onlyGivenNames v; clear_value v; revert v; intros)
    | with_reducible apply State.setImage_steady
    | with_reducible refine Steady.foldState (fun _ _ _ => ?_) ?_
    | with_reducible refine Steady.foldl (fun _ _ _ => ?_) _ ?_
    | with_reducible refine Steady.choice ?_ ?_
    | split
    | with_reducible apply Steady.upd

theorem State.setSlice_steady {a : State} {s : State} (i : Nat) (q : Slice) (hk : Steady a s) : Steady a (State.setSlice s i q) := by
  unfold State.setSlice
  repeat' first
    | with_reducible assumption
    | intro _
    | (extract_lets +onlyGivenNames v; refine Steady.cut (v := v) ?_ (fun _ => ?_); rotate_left; clear_value v; revert v; intros; rotate_right; unfold v; clear v)
    | (extract_lets +onlyGivenNames v; clear_value v; revert v; intros)
    | with_reducible refine Steady.foldState (fun _ _ _ => ?_) ?_
    | with_reducible refine Steady.foldl (fun _ _ _ => ?_) _ ?_
    | with_reducible refine Steady.choice ?_ ?_
    | split
    | with_reducible apply Steady.upd

theorem State.modSlice_steady {a : State} {s : State} (i : Nat) (f : Slice → Slice) (hk : Steady a s) : Steady a (State.modSlice s i f) := by
  unfold State.modSlice
  repeat' first
    | with_reducible assumption
    | intro _
    | (extract_lets +onlyGivenNames v; refine Steady.cut (v := v) ?_ (fun _ => ?_); rotate_left; clear_value v; revert v; intros; rotate_right; unfold v; clear v)
    | (extract_lets +onlyGivenNames v; clear_value v; revert v; intros)
    | with_reducible apply State.setSlice_steady
    | with_reducible refine Steady.foldState (fun _ _ _ => ?_) ?_
    | with_reducible refine Steady.foldl (fun _ _ _ => ?_) _ ?_
    | with_reducible refine Steady.choice ?_ ?_
    | split
    | with_reducible apply Steady.upd

theorem State.setGroup_steady {a : State} {s : State} (g : Nat) (q : Group) (hk : Steady a s) : Steady a (State.setGroup s g q) := by
  unfold State.setGroup
  repeat' first
    | with_reducible assumption
    | intro _
    | (extract_lets +onlyGivenNames v; refine Steady.cut (v := v) ?_ (fun _ => ?_); rotate_left; clear_value v; revert v; intros; rotate_right; unfold v; clear v)
    | (extract_lets +onlyGivenNames v; clear_value v; revert v; intros)
    | with_reducible refine Steady.foldState (fun _ _ _ => ?_) ?_
    | with_reducible refine Steady.foldl (fun _ _ _ => ?_) _ ?_
    | with_reducible refine Steady.choice ?_ ?_
    | split
    | with_reducible apply Steady.upd

theorem State.modGroup_steady {a : State} {s : State} (g : Nat) (f : Group → Group) (hk : Steady a s) : Steady a (State.modGroup s g f) := by
  unfold State.modGroup
  repeat' first
    | with_reducible assumption
    | intro _
    | (extract_lets +onlyGivenNames v; refine Steady.cut (v := v) ?_ (fun _ => ?_); rotate_left; clear_value v; revert v; intros; rotate_right; unfold v; clear v)
    | (extract_lets +onlyGivenNames v; clear_value v; revert v; intros)
    | with_reducible apply State.setGroup_steady
    | with_reducible refine Steady.foldState (fun _ _ _ => ?_) ?_
    | with_reducible refine Steady.foldl (fun _ _ _ => ?_) _ ?_
    | with_reducible refine Steady.choice ?_ ?_
    | split
    | with_reducible apply Steady.upd

theorem State.dropEngine_steady {a : State} {s : State} (d : Dest) (hk : Steady a s) : Steady a (State.dropEngine s d) := by
  unfold State.dropEngine
  repeat' first
    | with_reducible assumption
    | intro _
    | (extract_lets +onlyGivenNames v; refine Steady.cut (v := v) ?_ (fun _ => ?_); rotate_left; clear_value v; revert v; intros; rotate_right; unfold v; clear v)
    | (extract_lets +onlyGivenNames v; clear_value v; revert v; intros)
    | with_reducible apply State.modGroup_steady
    | with_reducible refine Steady.foldState (fun _ _ _ => ?_) ?_
    | with_reducible refine Steady.foldl (fun _ _ _ => ?_) _ ?_
    | with_reducible refine Steady.choice ?_ ?_
    | split
    | with_reducible apply Steady.upd

theorem State.showShaving_steady {a : State} {s : State} (sl : Nat) (step : Option Nat) (hk : Steady a s) : Steady a (State.showShaving s sl step) := by
  unfold State.showShaving
  repeat' first
    | with_reducible assumption
    | intro _
    | (extract_lets +onlyGivenNames v; refine Steady.cut (v := v) ?_ (fun _ => ?_); rotate_left; clear_value v; revert v; intros; rotate_right; unfold v; clear v)
    | (extract_lets +onlyGivenNames v; clear_value v; revert v; intros)
    | with_reducible apply State.setBit_steady
    | with_reducible apply State.setFld_steady
    | with_reducible refine Steady.foldState (fun _ _ _ => ?_) ?_
    | with_reducible refine Steady.foldl (fun _ _ _ => ?_) _ ?_
    | with_reducible refine Steady.choice ?_ ?_
    | split
    | with_reducible apply Steady.upd

theorem State.clearFw_steady {a : State} {s : State} (sl : Nat) (hk : Steady a s) : Steady a (State.clearFw s sl) := by
  unfold State.clearFw
  repeat' first
    | with_reducible assumption
    | intro _
    | (extract_lets +onlyGivenNames v; refine Steady.cut (v := v) ?_ (fun _ => ?_); rotate_left; clear_value v; revert v; intros; rotate_right; unfold v; clear v)
    | (extract_lets +onlyGivenNames v; clear_value v; revert v; intros)
    | with_reducible apply State.setReg_steady
    | with_reducible refine Steady.foldState (fun _ _ _ => ?_) ?_
    | with_reducible refine Steady.foldl (fun _ _ _ => ?_) _ ?_
    | with_reducible refine Steady.choice ?_ ?_
    | split
    | with_reducible apply Steady.upd

theorem State.nextShaving_steady {a : State} {s : State} (sl : Nat) (hk : Steady a s) : Steady a (State.nextShaving s sl) := by
  unfold State.nextShaving
  repeat' first
    | with_reducible assumption
    | intro _
    | (extract_lets +onlyGivenNames v; refine Steady.cut (v := v) ?_ (fun _ => ?_); rotate_left; clear_value v; revert v; intros; rotate_right; unfold v; clear v)
    | (extract_lets +onlyGivenNames v; clear_value v; revert v; intros)
    | with_reducible apply State.clearFw_steady
    | with_reducible apply State.bump_steady
    | with_reducible apply State.setFld_steady
    | with_reducible refine Steady.foldState (fun _ _ _ => ?_) ?_
    | with_reducible refine Steady.foldl (fun _ _ _ => ?_) _ ?_
    | with_reducible refine Steady.choice ?_ ?_
    | split
    | with_reducible apply Steady.upd

theorem State.endTest_steady {a : State} {s : State} (sl : Nat) (aborted : Bool) (hk : Steady a s) : Steady a (State.endTest s sl aborted) := by
  unfold State.endTest
  repeat' first
    | with_reducible assumption
    | intro _
    | (extract_lets +onlyGivenNames v; refine Steady.cut (v := v) ?_ (fun _ => ?_); rotate_left; clear_value v; revert v; intros; rotate_right; unfold v; clear v)
    | (extract_lets +onlyGivenNames v; clear_value v; revert v; intros)
    | with_reducible apply State.modSlice_steady
    | with_reducible apply State.outcome_steady
    | with_reducible apply State.reply_steady
    | with_reducible refine Steady.foldState (fun _ _ _ => ?_) ?_
    | with_reducible refine Steady.foldl (fun _ _ _ => ?_) _ ?_
    | with_reducible refine Steady.choice ?_ ?_
    | split
    | with_reducible apply Steady.upd

theorem State.endShaving_steady {a : State} {s : State} (sl : Nat) (ofTest : Bool) (hard : Bool) (why : Option Abandon) (hk : Steady a s) : Steady a (State.endShaving s sl ofTest hard why) := by
  unfold State.endShaving
  repeat' first
    | with_reducible assumption
    | intro _
    | (extract_lets +onlyGivenNames v; refine Steady.cut (v := v) ?_ (fun _ => ?_); rotate_left; clear_value v; revert v; intros; rotate_right; unfold v; clear v)
    | (extract_lets +onlyGivenNames v; clear_value v; revert v; intros)
    | with_reducible apply State.modSlice_steady
    | with_reducible apply State.dropEngine_steady
    | with_reducible apply State.showShaving_steady
    | with_reducible apply State.nextShaving_steady
    | with_reducible apply State.endTest_steady
    | with_reducible refine Steady.foldState (fun _ _ _ => ?_) ?_
    | with_reducible refine Steady.foldl (fun _ _ _ => ?_) _ ?_
    | with_reducible refine Steady.choice ?_ ?_
    | split
    | with_reducible apply Steady.upd

theorem State.abandonShaving_steady {a : State} {s : State} (sl : Nat) (why : Abandon) (hk : Steady a s) : Steady a (State.abandonShaving s sl why) := by
  unfold State.abandonShaving
  repeat' first
    | with_reducible assumption
    | intro _
    | (extract_lets +onlyGivenNames v; refine Steady.cut (v := v) ?_ (fun _ => ?_); rotate_left; clear_value v; revert v; intros; rotate_right; unfold v; clear v)
    | (extract_lets +onlyGivenNames v; clear_value v; revert v; intros)
    | with_reducible apply overLines_steady
    | with_reducible apply State.restoreLine_steady
    | with_reducible apply State.endShaving_steady
    | with_reducible refine Steady.foldState (fun _ _ _ => ?_) ?_
    | with_reducible refine Steady.foldl (fun _ _ _ => ?_) _ ?_
    | with_reducible refine Steady.choice ?_ ?_
    | split
    | with_reducible apply Steady.upd

theorem State.takeFree_steady {a : State} {s : State} (hk : Steady a s) : Steady a (State.takeFree s) := Steady.stepFree 1 hk

theorem State.keepWrite_steady {a : State} {s : State} (i : Nat) (v : Word) (hk : Steady a s) : Steady a (State.keepWrite s i v) := by
  unfold State.keepWrite
  repeat' first
    | with_reducible assumption
    | intro _
    | (extract_lets +onlyGivenNames v; refine Steady.cut (v := v) ?_ (fun _ => ?_); rotate_left; clear_value v; revert v; intros; rotate_right; unfold v; clear v)
    | (extract_lets +onlyGivenNames v; clear_value v; revert v; intros)
    | with_reducible apply State.setReg_steady
    | with_reducible apply State.setFld_steady
    | with_reducible refine Steady.foldState (fun _ _ _ => ?_) ?_
    | with_reducible refine Steady.foldl (fun _ _ _ => ?_) _ ?_
    | with_reducible refine Steady.choice ?_ ?_
    | split
    | with_reducible apply Steady.upd

theorem State.keepEvent_steady {a : State} {s : State} (cls : Nat) (pb : Nat) (ix : Nat) (hk : Steady a s) : Steady a (State.keepEvent s cls pb ix) := by
  unfold State.keepEvent
  repeat' first
    | with_reducible assumption
    | intro _
    | (extract_lets +onlyGivenNames v; refine Steady.cut (v := v) ?_ (fun _ => ?_); rotate_left; clear_value v; revert v; intros; rotate_right; unfold v; clear v)
    | (extract_lets +onlyGivenNames v; clear_value v; revert v; intros)
    | with_reducible apply State.keepWrite_steady
    | with_reducible refine Steady.foldState (fun _ _ _ => ?_) ?_
    | with_reducible refine Steady.foldl (fun _ _ _ => ?_) _ ?_
    | with_reducible refine Steady.choice ?_ ?_
    | split
    | with_reducible apply Steady.upd

theorem State.finding_steady {a : State} {s : State} (cls : Nat) (agent : Nat) (pb : Nat) (ix : Nat) (syn : Nat) (word : Nat) (la : Option Nat) (hk : Steady a s) : Steady a (State.finding s cls agent pb ix syn word la) := by
  unfold State.finding
  repeat' first
    | with_reducible assumption
    | intro _
    | (extract_lets +onlyGivenNames v; refine Steady.cut (v := v) ?_ (fun _ => ?_); rotate_left; clear_value v; revert v; intros; rotate_right; unfold v; clear v)
    | (extract_lets +onlyGivenNames v; clear_value v; revert v; intros)
    | with_reducible apply State.setBit_steady
    | with_reducible apply State.bump_steady
    | with_reducible apply State.takeFree_steady
    | with_reducible apply State.setReg_steady
    | with_reducible apply State.keepEvent_steady
    | with_reducible refine Steady.foldState (fun _ _ _ => ?_) ?_
    | with_reducible refine Steady.foldl (fun _ _ _ => ?_) _ ?_
    | with_reducible refine Steady.choice ?_ ?_
    | split
    | with_reducible apply Steady.upd

theorem State.keepInt_steady {a : State} {s : State} (i : Nat) (v : Word) (hk : Steady a s) : Steady a (State.keepInt s i v) := by
  unfold State.keepInt
  repeat' first
    | with_reducible assumption
    | intro _
    | (extract_lets +onlyGivenNames v; refine Steady.cut (v := v) ?_ (fun _ => ?_); rotate_left; clear_value v; revert v; intros; rotate_right; unfold v; clear v)
    | (extract_lets +onlyGivenNames v; clear_value v; revert v; intros)
    | with_reducible apply State.keepWrite_steady
    | with_reducible refine Steady.foldState (fun _ _ _ => ?_) ?_
    | with_reducible refine Steady.foldl (fun _ _ _ => ?_) _ ?_
    | with_reducible refine Steady.choice ?_ ?_
    | split
    | with_reducible apply Steady.upd

theorem State.faultWords_steady {a : State} {s : State} (w : Nat → Word → State → State) (kind : Nat) (port : Nat) (sl : Nat) (ctx : Nat) (detail : Nat) (hw : ∀ y0 y1 y2, Steady a y2 → Steady a (w y0 y1 y2)) (hk : Steady a s) : Steady a (State.faultWords s w kind port sl ctx detail) := by
  unfold State.faultWords
  repeat' first
    | with_reducible assumption
    | intro _
    | (extract_lets +onlyGivenNames v; refine Steady.cut (v := v) ?_ (fun _ => ?_); rotate_left; clear_value v; revert v; intros; rotate_right; unfold v; clear v)
    | (extract_lets +onlyGivenNames v; clear_value v; revert v; intros)
    | with_reducible apply State.takeFree_steady
    | with_reducible apply hw
    | with_reducible refine Steady.foldState (fun _ _ _ => ?_) ?_
    | with_reducible refine Steady.foldl (fun _ _ _ => ?_) _ ?_
    | with_reducible refine Steady.choice ?_ ?_
    | split
    | with_reducible apply Steady.upd

theorem State.keepFault_steady {a : State} {s : State} (kind : Nat) (port : Nat) (sl : Nat) (ctx : Nat) (detail : Nat) (hk : Steady a s) : Steady a (State.keepFault s kind port sl ctx detail) := by
  unfold State.keepFault
  repeat' first
    | with_reducible assumption
    | intro _
    | (extract_lets +onlyGivenNames v; refine Steady.cut (v := v) ?_ (fun _ => ?_); rotate_left; clear_value v; revert v; intros; rotate_right; unfold v; clear v)
    | (extract_lets +onlyGivenNames v; clear_value v; revert v; intros)
    | with_reducible apply State.faultWords_steady
    | with_reducible apply State.keepWrite_steady
    | with_reducible refine Steady.foldState (fun _ _ _ => ?_) ?_
    | with_reducible refine Steady.foldl (fun _ _ _ => ?_) _ ?_
    | with_reducible refine Steady.choice ?_ ?_
    | split
    | with_reducible apply Steady.upd

theorem State.makeDead_steady {a : State} {s : State} (lb : Nat) (hk : Steady a s) : Steady a (State.makeDead s lb) := by
  unfold State.makeDead
  repeat' first
    | with_reducible assumption
    | intro _
    | (extract_lets +onlyGivenNames v; refine Steady.cut (v := v) ?_ (fun _ => ?_); rotate_left; clear_value v; revert v; intros; rotate_right; unfold v; clear v)
    | (extract_lets +onlyGivenNames v; clear_value v; revert v; intros)
    | with_reducible apply State.setFld_steady
    | with_reducible apply State.setBit_steady
    | with_reducible apply State.finding_steady
    | with_reducible apply State.keepInt_steady
    | with_reducible apply State.keepFault_steady
    | with_reducible refine Steady.foldState (fun _ _ _ => ?_) ?_
    | with_reducible refine Steady.foldl (fun _ _ _ => ?_) _ ?_
    | with_reducible refine Steady.choice ?_ ?_
    | split
    | with_reducible apply Steady.upd

theorem State.setSpare_steady {a : State} {s : State} (sl : Nat) (pos : Nat) (st : Nat) (hk : Steady a s) : Steady a (State.setSpare s sl pos st) := by
  unfold State.setSpare
  repeat' first
    | with_reducible assumption
    | intro _
    | (extract_lets +onlyGivenNames v; refine Steady.cut (v := v) ?_ (fun _ => ?_); rotate_left; clear_value v; revert v; intros; rotate_right; unfold v; clear v)
    | (extract_lets +onlyGivenNames v; clear_value v; revert v; intros)
    | with_reducible apply State.setFld_steady
    | with_reducible refine Steady.foldState (fun _ _ _ => ?_) ?_
    | with_reducible refine Steady.foldl (fun _ _ _ => ?_) _ ?_
    | with_reducible refine Steady.choice ?_ ?_
    | split
    | with_reducible apply Steady.upd

theorem State.keepSpares_steady {a : State} {s : State} (sl : Nat) (n : Nat) (hk : Steady a s) : Steady a (State.keepSpares s sl n) := by
  unfold State.keepSpares
  repeat' first
    | with_reducible assumption
    | intro _
    | (extract_lets +onlyGivenNames v; refine Steady.cut (v := v) ?_ (fun _ => ?_); rotate_left; clear_value v; revert v; intros; rotate_right; unfold v; clear v)
    | (extract_lets +onlyGivenNames v; clear_value v; revert v; intros)
    | with_reducible apply State.keepInt_steady
    | with_reducible refine Steady.foldState (fun _ _ _ => ?_) ?_
    | with_reducible refine Steady.foldl (fun _ _ _ => ?_) _ ?_
    | with_reducible refine Steady.choice ?_ ?_
    | split
    | with_reducible apply Steady.upd

theorem State.abortMigration_steady {a : State} {s : State} (sl : Nat) (spareFailed : Bool) (hk : Steady a s) : Steady a (State.abortMigration s sl spareFailed) := by
  unfold State.abortMigration
  repeat' first
    | with_reducible assumption
    | intro _
    | (extract_lets +onlyGivenNames v; refine Steady.cut (v := v) ?_ (fun _ => ?_); rotate_left; clear_value v; revert v; intros; rotate_right; unfold v; clear v)
    | (extract_lets +onlyGivenNames v; clear_value v; revert v; intros)
    | with_reducible apply State.makeDead_steady
    | with_reducible apply State.dropEngine_steady
    | with_reducible apply State.setSpare_steady
    | with_reducible apply State.setFld_steady
    | with_reducible apply State.modSlice_steady
    | with_reducible apply State.setBit_steady
    | with_reducible apply State.keepSpares_steady
    | with_reducible apply State.outcome_steady
    | with_reducible refine Steady.foldState (fun _ _ _ => ?_) ?_
    | with_reducible refine Steady.foldl (fun _ _ _ => ?_) _ ?_
    | with_reducible refine Steady.choice ?_ ?_
    | split
    | with_reducible apply Steady.upd

theorem State.setPort_steady {a : State} {s : State} (p : Nat) (q : Port) (hk : Steady a s) : Steady a (State.setPort s p q) := by
  unfold State.setPort
  repeat' first
    | with_reducible assumption
    | intro _
    | (extract_lets +onlyGivenNames v; refine Steady.cut (v := v) ?_ (fun _ => ?_); rotate_left; clear_value v; revert v; intros; rotate_right; unfold v; clear v)
    | (extract_lets +onlyGivenNames v; clear_value v; revert v; intros)
    | with_reducible refine Steady.foldState (fun _ _ _ => ?_) ?_
    | with_reducible refine Steady.foldl (fun _ _ _ => ?_) _ ?_
    | with_reducible refine Steady.choice ?_ ?_
    | split
    | with_reducible apply Steady.upd

theorem State.modPort_steady {a : State} {s : State} (p : Nat) (f : Port → Port) (hk : Steady a s) : Steady a (State.modPort s p f) := by
  unfold State.modPort
  repeat' first
    | with_reducible assumption
    | intro _
    | (extract_lets +onlyGivenNames v; refine Steady.cut (v := v) ?_ (fun _ => ?_); rotate_left; clear_value v; revert v; intros; rotate_right; unfold v; clear v)
    | (extract_lets +onlyGivenNames v; clear_value v; revert v; intros)
    | with_reducible apply State.setPort_steady
    | with_reducible refine Steady.foldState (fun _ _ _ => ?_) ?_
    | with_reducible refine Steady.foldl (fun _ _ _ => ?_) _ ?_
    | with_reducible refine Steady.choice ?_ ?_
    | split
    | with_reducible apply Steady.upd

theorem State.enqueue_steady {a : State} {s : State} (p : Nat) (r : Req) (hk : Steady a s) : Steady a (State.enqueue s p r) := by
  unfold State.enqueue
  repeat' first
    | with_reducible assumption
    | intro _
    | (extract_lets +onlyGivenNames v; refine Steady.cut (v := v) ?_ (fun _ => ?_); rotate_left; clear_value v; revert v; intros; rotate_right; unfold v; clear v)
    | (extract_lets +onlyGivenNames v; clear_value v; revert v; intros)
    | with_reducible apply State.modPort_steady
    | with_reducible refine Steady.foldState (fun _ _ _ => ?_) ?_
    | with_reducible refine Steady.foldl (fun _ _ _ => ?_) _ ?_
    | with_reducible refine Steady.choice ?_ ?_
    | split
    | with_reducible apply Steady.upd

theorem State.vpcDrop_steady {a : State} {s : State} (p : Nat) (las : List Nat) (hk : Steady a s) : Steady a (State.vpcDrop s p las) := by
  unfold State.vpcDrop
  repeat' first
    | with_reducible assumption
    | intro _
    | (extract_lets +onlyGivenNames v; refine Steady.cut (v := v) ?_ (fun _ => ?_); rotate_left; clear_value v; revert v; intros; rotate_right; unfold v; clear v)
    | (extract_lets +onlyGivenNames v; clear_value v; revert v; intros)
    | with_reducible apply State.modPort_steady
    | with_reducible refine Steady.foldState (fun _ _ _ => ?_) ?_
    | with_reducible refine Steady.foldl (fun _ _ _ => ?_) _ ?_
    | with_reducible refine Steady.choice ?_ ?_
    | split
    | with_reducible apply Steady.upd

theorem State.vpcInval_steady {a : State} {s : State} (p : Nat) (las : List Nat) (hk : Steady a s) : Steady a (State.vpcInval s p las) := by
  unfold State.vpcInval
  repeat' first
    | with_reducible assumption
    | intro _
    | (extract_lets +onlyGivenNames v; refine Steady.cut (v := v) ?_ (fun _ => ?_); rotate_left; clear_value v; revert v; intros; rotate_right; unfold v; clear v)
    | (extract_lets +onlyGivenNames v; clear_value v; revert v; intros)
    | with_reducible apply State.vpcDrop_steady
    | with_reducible apply State.modPort_steady
    | with_reducible refine Steady.foldState (fun _ _ _ => ?_) ?_
    | with_reducible refine Steady.foldl (fun _ _ _ => ?_) _ ?_
    | with_reducible refine Steady.choice ?_ ?_
    | split
    | with_reducible apply Steady.upd

theorem State.holdRgn_steady {a : State} {s : State} (n : Nat) (hk : Steady a s) : Steady a (State.holdRgn s n) := by
  unfold State.holdRgn
  repeat' first
    | with_reducible assumption
    | intro _
    | (extract_lets +onlyGivenNames v; refine Steady.cut (v := v) ?_ (fun _ => ?_); rotate_left; clear_value v; revert v; intros; rotate_right; unfold v; clear v)
    | (extract_lets +onlyGivenNames v; clear_value v; revert v; intros)
    | with_reducible apply State.setReg_steady
    | with_reducible refine Steady.foldState (fun _ _ _ => ?_) ?_
    | with_reducible refine Steady.foldl (fun _ _ _ => ?_) _ ?_
    | with_reducible refine Steady.choice ?_ ?_
    | split
    | with_reducible apply Steady.upd

theorem State.acceptData_steady {a : State} {s : State} (p : Nat) (slot : Nat) (n : Nat) (r : Req) (hk : Steady a s) : Steady a (State.acceptData s p slot n r) := by
  unfold State.acceptData
  repeat' first
    | with_reducible assumption
    | intro _
    | (extract_lets +onlyGivenNames v; refine Steady.cut (v := v) ?_ (fun _ => ?_); rotate_left; clear_value v; revert v; intros; rotate_right; unfold v; clear v)
    | (extract_lets +onlyGivenNames v; clear_value v; revert v; intros)
    | with_reducible apply State.enqueue_steady
    | with_reducible apply State.vpcInval_steady
    | with_reducible apply State.modPort_steady
    | with_reducible apply State.holdRgn_steady
    | with_reducible refine Steady.foldState (fun _ _ _ => ?_) ?_
    | with_reducible refine Steady.foldl (fun _ _ _ => ?_) _ ?_
    | with_reducible refine Steady.choice ?_ ?_
    | split
    | with_reducible apply Steady.upd

theorem State.acceptReq_steady {a : State} {s : State} (p : Nat) (w : Held) (hk : Steady a s) : Steady a (State.acceptReq s p w) := by
  unfold State.acceptReq
  repeat' first
    | with_reducible assumption
    | intro _
    | (extract_lets +onlyGivenNames v; refine Steady.cut (v := v) ?_ (fun _ => ?_); rotate_left; clear_value v; revert v; intros; rotate_right; unfold v; clear v)
    | (extract_lets +onlyGivenNames v; clear_value v; revert v; intros)
    | with_reducible apply State.enqueue_steady
    | with_reducible apply State.acceptData_steady
    | with_reducible apply State.holdRgn_steady
    | with_reducible apply State.modPort_steady
    | with_reducible refine Steady.foldState (fun _ _ _ => ?_) ?_
    | with_reducible refine Steady.foldl (fun _ _ _ => ?_) _ ?_
    | with_reducible refine Steady.choice ?_ ?_
    | split
    | with_reducible apply Steady.upd

theorem State.sendLine_steady {a : State} {s : State} (a1 : Access) (hk : Steady a s) : Steady a (State.sendLine s a1) := by
  unfold State.sendLine
  repeat' first
    | with_reducible assumption
    | intro _
    | (extract_lets +onlyGivenNames v; refine Steady.cut (v := v) ?_ (fun _ => ?_); rotate_left; clear_value v; revert v; intros; rotate_right; unfold v; clear v)
    | (extract_lets +onlyGivenNames v; clear_value v; revert v; intros)
    | with_reducible apply State.modGroup_steady
    | with_reducible refine Steady.foldState (fun _ _ _ => ?_) ?_
    | with_reducible refine Steady.foldl (fun _ _ _ => ?_) _ ?_
    | with_reducible refine Steady.choice ?_ ?_
    | split
    | with_reducible apply Steady.upd

theorem State.acceptSegment_steady {a : State} {s : State} (b : Nat) (slot : Nat) (h : Pkt) (data : List Byte) (hk : Steady a s) : Steady a (State.acceptSegment s b slot h data) := by
  unfold State.acceptSegment
  repeat' first
    | with_reducible assumption
    | intro _
    | (extract_lets +onlyGivenNames v; refine Steady.cut (v := v) ?_ (fun _ => ?_); rotate_left; clear_value v; revert v; intros; rotate_right; unfold v; clear v)
    | (extract_lets +onlyGivenNames v; clear_value v; revert v; intros)
    | with_reducible apply State.fresh_steady
    | with_reducible apply State.setFld_steady
    | with_reducible apply State.sendLine_steady
    | with_reducible refine Steady.foldState (fun _ _ _ => ?_) ?_
    | with_reducible refine Steady.foldl (fun _ _ _ => ?_) _ ?_
    | with_reducible refine Steady.choice ?_ ?_
    | split
    | with_reducible apply Steady.upd

theorem State.wantRetire_steady {a : State} {s : State} (lb : Nat) (hk : Steady a s) : Steady a (State.wantRetire s lb) := by
  unfold State.wantRetire
  repeat' first
    | with_reducible assumption
    | intro _
    | (extract_lets +onlyGivenNames v; refine Steady.cut (v := v) ?_ (fun _ => ?_); rotate_left; clear_value v; revert v; intros; rotate_right; unfold v; clear v)
    | (extract_lets +onlyGivenNames v; clear_value v; revert v; intros)
    | with_reducible apply State.modSlice_steady
    | with_reducible refine Steady.foldState (fun _ _ _ => ?_) ?_
    | with_reducible refine Steady.foldl (fun _ _ _ => ?_) _ ?_
    | with_reducible refine Steady.choice ?_ ?_
    | split
    | with_reducible apply Steady.upd

theorem State.hardFault_steady {a : State} {s : State} (lb : Nat) (hk : Steady a s) : Steady a (State.hardFault s lb) := by
  unfold State.hardFault
  repeat' first
    | with_reducible assumption
    | intro _
    | (extract_lets +onlyGivenNames v; refine Steady.cut (v := v) ?_ (fun _ => ?_); rotate_left; clear_value v; revert v; intros; rotate_right; unfold v; clear v)
    | (extract_lets +onlyGivenNames v; clear_value v; revert v; intros)
    | with_reducible apply State.abortMigration_steady
    | with_reducible apply State.wantRetire_steady
    | with_reducible refine Steady.foldState (fun _ _ _ => ?_) ?_
    | with_reducible refine Steady.foldl (fun _ _ _ => ?_) _ ?_
    | with_reducible refine Steady.choice ?_ ?_
    | split
    | with_reducible apply Steady.upd

theorem State.arrayFault_steady {a : State} {s : State} (pb : Nat) (hk : Steady a s) : Steady a (State.arrayFault s pb) := by
  unfold State.arrayFault
  repeat' first
    | with_reducible assumption
    | intro _
    | (extract_lets +onlyGivenNames v; refine Steady.cut (v := v) ?_ (fun _ => ?_); rotate_left; clear_value v; revert v; intros; rotate_right; unfold v; clear v)
    | (extract_lets +onlyGivenNames v; clear_value v; revert v; intros)
    | with_reducible apply State.hardFault_steady
    | with_reducible apply State.abortMigration_steady
    | with_reducible apply State.keepSpares_steady
    | with_reducible apply State.setSpare_steady
    | with_reducible refine Steady.foldState (fun _ _ _ => ?_) ?_
    | with_reducible refine Steady.foldl (fun _ _ _ => ?_) _ ?_
    | with_reducible refine Steady.choice ?_ ?_
    | split
    | with_reducible apply Steady.upd

theorem State.accessFault_steady {a : State} {s : State} (agent : Nat) (pb : Nat) (ix : Nat) (la : Option Nat) (hk : Steady a s) : Steady a (State.accessFault s agent pb ix la) := by
  unfold State.accessFault
  repeat' first
    | with_reducible assumption
    | intro _
    | (extract_lets +onlyGivenNames v; refine Steady.cut (v := v) ?_ (fun _ => ?_); rotate_left; clear_value v; revert v; intros; rotate_right; unfold v; clear v)
    | (extract_lets +onlyGivenNames v; clear_value v; revert v; intros)
    | with_reducible apply State.arrayFault_steady
    | with_reducible apply State.setBit_steady
    | with_reducible apply State.finding_steady
    | with_reducible refine Steady.foldState (fun _ _ _ => ?_) ?_
    | with_reducible refine Steady.foldl (fun _ _ _ => ?_) _ ?_
    | with_reducible refine Steady.choice ?_ ?_
    | split
    | with_reducible apply Steady.upd

theorem State.markWaits_steady {a : State} {s : State} (flag : Bool) (n : Nat) (hk : Steady a s) : Steady a (State.markWaits s flag n) := by
  unfold State.markWaits
  repeat' first
    | with_reducible assumption
    | intro _
    | (extract_lets +onlyGivenNames v; refine Steady.cut (v := v) ?_ (fun _ => ?_); rotate_left; clear_value v; revert v; intros; rotate_right; unfold v; clear v)
    | (extract_lets +onlyGivenNames v; clear_value v; revert v; intros)
    | with_reducible refine Steady.foldState (fun _ _ _ => ?_) ?_
    | with_reducible refine Steady.foldl (fun _ _ _ => ?_) _ ?_
    | with_reducible refine Steady.choice ?_ ?_
    | split
    | with_reducible apply Steady.upd

theorem State.moved_steady {a : State} {s : State} (flag : Bool) (n : Nat) (hk : Steady a s) : Steady a (State.moved s flag n) := by
  unfold State.moved
  repeat' first
    | with_reducible assumption
    | intro _
    | (extract_lets +onlyGivenNames v; refine Steady.cut (v := v) ?_ (fun _ => ?_); rotate_left; clear_value v; revert v; intros; rotate_right; unfold v; clear v)
    | (extract_lets +onlyGivenNames v; clear_value v; revert v; intros)
    | with_reducible refine Steady.foldState (fun _ _ _ => ?_) ?_
    | with_reducible refine Steady.foldl (fun _ _ _ => ?_) _ ?_
    | with_reducible refine Steady.choice ?_ ?_
    | split
    | with_reducible apply Steady.upd

theorem State.addCtr_steady {a : State} {s : State} (n : Nat) (v : Nat) (m : Modif) (hk : Steady a s) : Steady a (State.addCtr s n v m) := by
  unfold State.addCtr
  repeat' first
    | with_reducible assumption
    | intro _
    | (extract_lets +onlyGivenNames v; refine Steady.cut (v := v) ?_ (fun _ => ?_); rotate_left; clear_value v; revert v; intros; rotate_right; unfold v; clear v)
    | (extract_lets +onlyGivenNames v; clear_value v; revert v; intros)
    | with_reducible apply State.setBit_steady
    | with_reducible apply State.markWaits_steady
    | with_reducible apply State.moved_steady
    | with_reducible refine Steady.foldState (fun _ _ _ => ?_) ?_
    | with_reducible refine Steady.foldl (fun _ _ _ => ?_) _ ?_
    | with_reducible refine Steady.choice ?_ ?_
    | split
    | with_reducible apply Steady.upd

theorem State.refuseReq_steady {a : State} {s : State} (p : Nat) (uid : Nat) (h : Hdr) (code : Nat) (hk : Steady a s) : Steady a (State.refuseReq s p uid h code) := by
  unfold State.refuseReq
  repeat' first
    | with_reducible assumption
    | intro _
    | (extract_lets +onlyGivenNames v; refine Steady.cut (v := v) ?_ (fun _ => ?_); rotate_left; clear_value v; revert v; intros; rotate_right; unfold v; clear v)
    | (extract_lets +onlyGivenNames v; clear_value v; revert v; intros)
    | with_reducible apply State.enqueue_steady
    | with_reducible apply State.modPort_steady
    | with_reducible refine Steady.foldState (fun _ _ _ => ?_) ?_
    | with_reducible refine Steady.foldl (fun _ _ _ => ?_) _ ?_
    | with_reducible refine Steady.choice ?_ ?_
    | split
    | with_reducible apply Steady.upd

theorem State.retWd_steady {a : State} {s : State} (p : Nat) (hk : Steady a s) : Steady a (State.retWd s p) := by
  unfold State.retWd
  repeat' first
    | with_reducible assumption
    | intro _
    | (extract_lets +onlyGivenNames v; refine Steady.cut (v := v) ?_ (fun _ => ?_); rotate_left; clear_value v; revert v; intros; rotate_right; unfold v; clear v)
    | (extract_lets +onlyGivenNames v; clear_value v; revert v; intros)
    | with_reducible apply State.drive_steady
    | with_reducible apply State.modPort_steady
    | with_reducible refine Steady.foldState (fun _ _ _ => ?_) ?_
    | with_reducible refine Steady.foldl (fun _ _ _ => ?_) _ ?_
    | with_reducible refine Steady.choice ?_ ?_
    | split
    | with_reducible apply Steady.upd

theorem State.discardBeats_steady {a : State} {s : State} (p : Nat) (n : Nat) (hk : Steady a s) : Steady a (State.discardBeats s p n) := by
  unfold State.discardBeats
  repeat' first
    | with_reducible assumption
    | intro _
    | (extract_lets +onlyGivenNames v; refine Steady.cut (v := v) ?_ (fun _ => ?_); rotate_left; clear_value v; revert v; intros; rotate_right; unfold v; clear v)
    | (extract_lets +onlyGivenNames v; clear_value v; revert v; intros)
    | with_reducible apply State.retWd_steady
    | with_reducible refine Steady.foldState (fun _ _ _ => ?_) ?_
    | with_reducible refine Steady.foldl (fun _ _ _ => ?_) _ ?_
    | with_reducible refine Steady.choice ?_ ?_
    | split
    | with_reducible apply Steady.upd

theorem State.retReq_steady {a : State} {s : State} (p : Nat) (hk : Steady a s) : Steady a (State.retReq s p) := by
  unfold State.retReq
  repeat' first
    | with_reducible assumption
    | intro _
    | (extract_lets +onlyGivenNames v; refine Steady.cut (v := v) ?_ (fun _ => ?_); rotate_left; clear_value v; revert v; intros; rotate_right; unfold v; clear v)
    | (extract_lets +onlyGivenNames v; clear_value v; revert v; intros)
    | with_reducible apply State.drive_steady
    | with_reducible apply State.modPort_steady
    | with_reducible refine Steady.foldState (fun _ _ _ => ?_) ?_
    | with_reducible refine Steady.foldl (fun _ _ _ => ?_) _ ?_
    | with_reducible refine Steady.choice ?_ ?_
    | split
    | with_reducible apply Steady.upd

theorem State.takeIn_steady {a : State} {s : State} (p : Nat) (w : Held) (hk : Steady a s) : Steady a (State.takeIn s p w) := by
  unfold State.takeIn
  repeat' first
    | with_reducible assumption
    | intro _
    | (extract_lets +onlyGivenNames v; refine Steady.cut (v := v) ?_ (fun _ => ?_); rotate_left; clear_value v; revert v; intros; rotate_right; unfold v; clear v)
    | (extract_lets +onlyGivenNames v; clear_value v; revert v; intros)
    | with_reducible apply State.refuseReq_steady
    | with_reducible apply State.bump_steady
    | with_reducible apply State.discardBeats_steady
    | with_reducible apply State.retReq_steady
    | with_reducible apply State.acceptReq_steady
    | with_reducible apply State.modPort_steady
    | with_reducible refine Steady.foldState (fun _ _ _ => ?_) ?_
    | with_reducible refine Steady.foldl (fun _ _ _ => ?_) _ ?_
    | with_reducible refine Steady.choice ?_ ?_
    | split
    | with_reducible apply Steady.upd

theorem State.admitHeld_steady {a : State} {s : State} (p : Nat) (x2 : Nat) (hk : Steady a s) : Steady a (State.admitHeld s p x2) := by
  induction x2 generalizing s p with
  | zero => exact hk
  | succ n ih =>
    unfold State.admitHeld
    repeat' first
      | with_reducible assumption
      | intro _
      | (extract_lets +onlyGivenNames v; refine Steady.cut (v := v) ?_ (fun _ => ?_); rotate_left; clear_value v; revert v; intros; rotate_right; unfold v; clear v)
      | (extract_lets +onlyGivenNames v; clear_value v; revert v; intros)
      | with_reducible apply State.takeIn_steady
      | with_reducible apply State.modPort_steady
      | with_reducible apply ih
      | with_reducible refine Steady.foldState (fun _ _ _ => ?_) ?_
      | with_reducible refine Steady.foldl (fun _ _ _ => ?_) _ ?_
      | with_reducible refine Steady.choice ?_ ?_
      | split
      | with_reducible apply Steady.upd

theorem State.evalAdd_steady {a s out : State} {p : Nat} {r : Req} {n : Nat} {v : Nat} (e : State.evalAdd s p r n v = some out) (hk : Steady a s) : Steady a out := by
  unfold State.evalAdd at e
  try dsimp only at e
  repeat' split at e
  all_goals try cases e
  repeat' first
    | with_reducible assumption
    | intro _
    | (extract_lets +onlyGivenNames v; refine Steady.cut (v := v) ?_ (fun _ => ?_); rotate_left; clear_value v; revert v; intros; rotate_right; unfold v; clear v)
    | (extract_lets +onlyGivenNames v; clear_value v; revert v; intros)
    | with_reducible apply State.addCtr_steady
    | with_reducible refine Steady.foldState (fun _ _ _ => ?_) ?_
    | with_reducible refine Steady.foldl (fun _ _ _ => ?_) _ ?_
    | with_reducible refine Steady.choice ?_ ?_
    | split
    | with_reducible apply Steady.upd

theorem State.modReq_steady {a : State} {s : State} (p : Nat) (uid : Nat) (f : Req → Req) (hk : Steady a s) : Steady a (State.modReq s p uid f) := by
  unfold State.modReq
  repeat' first
    | with_reducible assumption
    | intro _
    | (extract_lets +onlyGivenNames v; refine Steady.cut (v := v) ?_ (fun _ => ?_); rotate_left; clear_value v; revert v; intros; rotate_right; unfold v; clear v)
    | (extract_lets +onlyGivenNames v; clear_value v; revert v; intros)
    | with_reducible apply State.modPort_steady
    | with_reducible refine Steady.foldState (fun _ _ _ => ?_) ?_
    | with_reducible refine Steady.foldl (fun _ _ _ => ?_) _ ?_
    | with_reducible refine Steady.choice ?_ ?_
    | split
    | with_reducible apply Steady.upd

theorem State.setPhase_steady {a : State} {s : State} (p : Nat) (uid : Nat) (ph : Phase) (hk : Steady a s) : Steady a (State.setPhase s p uid ph) := by
  unfold State.setPhase
  repeat' first
    | with_reducible assumption
    | intro _
    | (extract_lets +onlyGivenNames v; refine Steady.cut (v := v) ?_ (fun _ => ?_); rotate_left; clear_value v; revert v; intros; rotate_right; unfold v; clear v)
    | (extract_lets +onlyGivenNames v; clear_value v; revert v; intros)
    | with_reducible apply State.modReq_steady
    | with_reducible refine Steady.foldState (fun _ _ _ => ?_) ?_
    | with_reducible refine Steady.foldl (fun _ _ _ => ?_) _ ?_
    | with_reducible refine Steady.choice ?_ ?_
    | split
    | with_reducible apply Steady.upd

theorem State.advance_steady {a : State} {s : State} (p : Nat) (r : Req) (hk : Steady a s) : Steady a (State.advance s p r) := by
  unfold State.advance
  repeat' first
    | with_reducible assumption
    | intro _
    | (extract_lets +onlyGivenNames v; refine Steady.cut (v := v) ?_ (fun _ => ?_); rotate_left; clear_value v; revert v; intros; rotate_right; unfold v; clear v)
    | (extract_lets +onlyGivenNames v; clear_value v; revert v; intros)
    | with_reducible apply State.modReq_steady
    | with_reducible apply State.setPhase_steady
    | with_reducible apply State.bump_steady
    | refine State.evalAdd_steady (by assumption) ?_
    | refine Steady.getD (fun _ _ => ?_) ?_
    | with_reducible refine Steady.foldState (fun _ _ _ => ?_) ?_
    | with_reducible refine Steady.foldl (fun _ _ _ => ?_) _ ?_
    | with_reducible refine Steady.choice ?_ ?_
    | split
    | with_reducible apply Steady.upd

theorem State.setLink_steady {a : State} {s : State} (tp : Bool) (l : Link) (hk : Steady a s) : Steady a (State.setLink s tp l) := by
  unfold State.setLink
  repeat' first
    | with_reducible assumption
    | intro _
    | (extract_lets +onlyGivenNames v; refine Steady.cut (v := v) ?_ (fun _ => ?_); rotate_left; clear_value v; revert v; intros; rotate_right; unfold v; clear v)
    | (extract_lets +onlyGivenNames v; clear_value v; revert v; intros)
    | with_reducible refine Steady.foldState (fun _ _ _ => ?_) ?_
    | with_reducible refine Steady.foldl (fun _ _ _ => ?_) _ ?_
    | with_reducible refine Steady.choice ?_ ?_
    | split
    | with_reducible apply Steady.upd

theorem State.repayLink_steady {a : State} {s : State} (tp : Bool) (hk : Steady a s) : Steady a (State.repayLink s tp) := by
  unfold State.repayLink
  repeat' first
    | with_reducible assumption
    | intro _
    | (extract_lets +onlyGivenNames v; refine Steady.cut (v := v) ?_ (fun _ => ?_); rotate_left; clear_value v; revert v; intros; rotate_right; unfold v; clear v)
    | (extract_lets +onlyGivenNames v; clear_value v; revert v; intros)
    | with_reducible apply State.setLink_steady
    | with_reducible apply State.drive_steady
    | with_reducible refine Steady.foldState (fun _ _ _ => ?_) ?_
    | with_reducible refine Steady.foldl (fun _ _ _ => ?_) _ ?_
    | with_reducible refine Steady.choice ?_ ?_
    | split
    | with_reducible apply Steady.upd

theorem State.dropSent_steady {a : State} {s : State} (ptag : Nat) (hk : Steady a s) : Steady a (State.dropSent s ptag) := by
  unfold State.dropSent
  repeat' first
    | with_reducible assumption
    | intro _
    | (extract_lets +onlyGivenNames v; refine Steady.cut (v := v) ?_ (fun _ => ?_); rotate_left; clear_value v; revert v; intros; rotate_right; unfold v; clear v)
    | (extract_lets +onlyGivenNames v; clear_value v; revert v; intros)
    | with_reducible refine Steady.foldState (fun _ _ _ => ?_) ?_
    | with_reducible refine Steady.foldl (fun _ _ _ => ?_) _ ?_
    | with_reducible refine Steady.choice ?_ ?_
    | split
    | with_reducible apply Steady.upd

theorem State.send_steady {a : State} {s : State} (tp : Bool) (h : Pkt) (data : List Byte) (hk : Steady a s) : Steady a (State.send s tp h data) := by
  unfold State.send
  repeat' first
    | with_reducible assumption
    | intro _
    | (extract_lets +onlyGivenNames v; refine Steady.cut (v := v) ?_ (fun _ => ?_); rotate_left; clear_value v; revert v; intros; rotate_right; unfold v; clear v)
    | (extract_lets +onlyGivenNames v; clear_value v; revert v; intros)
    | with_reducible apply State.drive_steady
    | with_reducible apply State.setLink_steady
    | with_reducible refine Steady.foldState (fun _ _ _ => ?_) ?_
    | with_reducible refine Steady.foldl (fun _ _ _ => ?_) _ ?_
    | with_reducible refine Steady.choice ?_ ?_
    | split
    | with_reducible apply Steady.upd

theorem State.rnack_steady {a : State} {s : State} (h : Pkt) (code : Nat) (hk : Steady a s) : Steady a (State.rnack s h code) := by
  unfold State.rnack
  repeat' first
    | with_reducible assumption
    | intro _
    | (extract_lets +onlyGivenNames v; refine Steady.cut (v := v) ?_ (fun _ => ?_); rotate_left; clear_value v; revert v; intros; rotate_right; unfold v; clear v)
    | (extract_lets +onlyGivenNames v; clear_value v; revert v; intros)
    | with_reducible apply State.dropSent_steady
    | with_reducible apply State.setBit_steady
    | with_reducible apply State.send_steady
    | with_reducible refine Steady.foldState (fun _ _ _ => ?_) ?_
    | with_reducible refine Steady.foldl (fun _ _ _ => ?_) _ ?_
    | with_reducible refine Steady.choice ?_ ?_
    | split
    | with_reducible apply Steady.upd

theorem State.refusePkt_steady {a : State} {s : State} (h : Pkt) (code : Nat) (hk : Steady a s) : Steady a (State.refusePkt s h code) := by
  unfold State.refusePkt
  repeat' first
    | with_reducible assumption
    | intro _
    | (extract_lets +onlyGivenNames v; refine Steady.cut (v := v) ?_ (fun _ => ?_); rotate_left; clear_value v; revert v; intros; rotate_right; unfold v; clear v)
    | (extract_lets +onlyGivenNames v; clear_value v; revert v; intros)
    | with_reducible apply State.setFld_steady
    | with_reducible apply State.bump_steady
    | with_reducible apply State.rnack_steady
    | with_reducible refine Steady.foldState (fun _ _ _ => ?_) ?_
    | with_reducible refine Steady.foldl (fun _ _ _ => ?_) _ ?_
    | with_reducible refine Steady.choice ?_ ?_
    | split
    | with_reducible apply Steady.upd

theorem State.raise_steady {a : State} {s : State} (o : Nat) (hi : Nat) (lo : Nat) (v : Nat) (hk : Steady a s) : Steady a (State.raise s o hi lo v) := by
  unfold State.raise
  repeat' first
    | with_reducible assumption
    | intro _
    | (extract_lets +onlyGivenNames v; refine Steady.cut (v := v) ?_ (fun _ => ?_); rotate_left; clear_value v; revert v; intros; rotate_right; unfold v; clear v)
    | (extract_lets +onlyGivenNames v; clear_value v; revert v; intros)
    | with_reducible apply State.setFld_steady
    | with_reducible refine Steady.foldState (fun _ _ _ => ?_) ?_
    | with_reducible refine Steady.foldl (fun _ _ _ => ?_) _ ?_
    | with_reducible refine Steady.choice ?_ ?_
    | split
    | with_reducible apply Steady.upd

theorem State.queueSignal_steady {a : State} {s : State} (h : Pkt) (data : List Byte) (arrival : Word) (hk : Steady a s) : Steady a (State.queueSignal s h data arrival) := by
  unfold State.queueSignal
  repeat' first
    | with_reducible assumption
    | intro _
    | (extract_lets +onlyGivenNames v; refine Steady.cut (v := v) ?_ (fun _ => ?_); rotate_left; clear_value v; revert v; intros; rotate_right; unfold v; clear v)
    | (extract_lets +onlyGivenNames v; clear_value v; revert v; intros)
    | with_reducible apply State.setBit_steady
    | with_reducible apply State.raise_steady
    | with_reducible apply State.bump_steady
    | with_reducible refine Steady.foldState (fun _ _ _ => ?_) ?_
    | with_reducible refine Steady.foldl (fun _ _ _ => ?_) _ ?_
    | with_reducible refine Steady.choice ?_ ?_
    | split
    | with_reducible apply Steady.upd

theorem State.takeSignal_steady {a s out : State} {h : Pkt} {data : List Byte} {arrival : Word} (e : State.takeSignal s h data arrival = .done out) (hk : Steady a s) : Steady a out := by
  unfold State.takeSignal at e
  try dsimp only at e
  repeat' split at e
  all_goals try cases e
  repeat' first
    | with_reducible assumption
    | intro _
    | (extract_lets +onlyGivenNames v; refine Steady.cut (v := v) ?_ (fun _ => ?_); rotate_left; clear_value v; revert v; intros; rotate_right; unfold v; clear v)
    | (extract_lets +onlyGivenNames v; clear_value v; revert v; intros)
    | with_reducible apply State.refusePkt_steady
    | with_reducible apply State.rnack_steady
    | with_reducible apply State.queueSignal_steady
    | with_reducible refine Steady.foldState (fun _ _ _ => ?_) ?_
    | with_reducible refine Steady.foldl (fun _ _ _ => ?_) _ ?_
    | with_reducible refine Steady.choice ?_ ?_
    | split
    | with_reducible apply Steady.upd

theorem State.batchEntry_steady {a s out : State} {h : Pkt} {i : Nat} (e : State.batchEntry s h = some (i, out)) (hk : Steady a s) : Steady a out := by
  unfold State.batchEntry at e
  try dsimp only at e
  repeat' split at e
  all_goals try cases e
  repeat' first
    | with_reducible assumption
    | intro _
    | (extract_lets +onlyGivenNames v; refine Steady.cut (v := v) ?_ (fun _ => ?_); rotate_left; clear_value v; revert v; intros; rotate_right; unfold v; clear v)
    | (extract_lets +onlyGivenNames v; clear_value v; revert v; intros)
    | with_reducible refine Steady.foldState (fun _ _ _ => ?_) ?_
    | with_reducible refine Steady.foldl (fun _ _ _ => ?_) _ ?_
    | with_reducible refine Steady.choice ?_ ?_
    | split
    | with_reducible apply Steady.upd

theorem State.takeClosing_steady {a s out : State} {h : Pkt} {data : List Byte} (e : State.takeClosing s h data = .done out) (hk : Steady a s) : Steady a out := by
  unfold State.takeClosing at e
  try dsimp only at e
  repeat' split at e
  all_goals try cases e
  repeat' first
    | with_reducible assumption
    | intro _
    | (extract_lets +onlyGivenNames v; refine Steady.cut (v := v) ?_ (fun _ => ?_); rotate_left; clear_value v; revert v; intros; rotate_right; unfold v; clear v)
    | (extract_lets +onlyGivenNames v; clear_value v; revert v; intros)
    | with_reducible apply State.refusePkt_steady
    | refine State.batchEntry_steady (by assumption) ?_
    | with_reducible refine Steady.foldState (fun _ _ _ => ?_) ?_
    | with_reducible refine Steady.foldl (fun _ _ _ => ?_) _ ?_
    | with_reducible refine Steady.choice ?_ ?_
    | split
    | with_reducible apply Steady.upd

theorem State.batchDone_steady {a : State} {s : State} (b : Nat) (code : Nat) (hk : Steady a s) : Steady a (State.batchDone s b code) := by
  unfold State.batchDone
  repeat' first
    | with_reducible assumption
    | intro _
    | (extract_lets +onlyGivenNames v; refine Steady.cut (v := v) ?_ (fun _ => ?_); rotate_left; clear_value v; revert v; intros; rotate_right; unfold v; clear v)
    | (extract_lets +onlyGivenNames v; clear_value v; revert v; intros)
    | with_reducible refine Steady.foldState (fun _ _ _ => ?_) ?_
    | with_reducible refine Steady.foldl (fun _ _ _ => ?_) _ ?_
    | with_reducible refine Steady.choice ?_ ?_
    | split
    | with_reducible apply Steady.upd

theorem State.takeData_steady {a s out : State} {h : Pkt} {data : List Byte} (e : State.takeData s h data = .done out) (hk : Steady a s) : Steady a out := by
  unfold State.takeData at e
  try dsimp only at e
  repeat' split at e
  all_goals try cases e
  repeat' first
    | with_reducible assumption
    | intro _
    | (extract_lets +onlyGivenNames v; refine Steady.cut (v := v) ?_ (fun _ => ?_); rotate_left; clear_value v; revert v; intros; rotate_right; unfold v; clear v)
    | (extract_lets +onlyGivenNames v; clear_value v; revert v; intros)
    | with_reducible apply State.refusePkt_steady
    | with_reducible apply State.rnack_steady
    | with_reducible apply State.acceptSegment_steady
    | with_reducible apply State.batchDone_steady
    | refine State.batchEntry_steady (by assumption) ?_
    | with_reducible refine Steady.foldState (fun _ _ _ => ?_) ?_
    | with_reducible refine Steady.foldl (fun _ _ _ => ?_) _ ?_
    | with_reducible refine Steady.choice ?_ ?_
    | split
    | with_reducible apply Steady.upd

theorem State.takePkt_steady {a s t : State} {h : Pkt} {data : List Byte} {arrival : Word}
    (e : State.takePkt s h data arrival = .done t) (hk : Steady a s) : Steady a t := by
  unfold State.takePkt at e
  split at e
  · exact State.takeSignal_steady e hk
  · split at e
    · exact State.takeClosing_steady e hk
    · exact State.takeData_steady e hk

theorem State.serveHeld_steady {a : State} {s : State} (x1 : Nat) (hk : Steady a s) : Steady a (State.serveHeld s x1) := by
  induction x1 generalizing s with
  | zero => exact hk
  | succ n ih =>
    unfold State.serveHeld
    repeat' first
      | with_reducible assumption
      | intro _
      | (extract_lets +onlyGivenNames v; refine Steady.cut (v := v) ?_ (fun _ => ?_); rotate_left; clear_value v; revert v; intros; rotate_right; unfold v; clear v)
      | (extract_lets +onlyGivenNames v; clear_value v; revert v; intros)
      | refine State.takePkt_steady (by assumption) ?_
      | with_reducible apply ih
      | refine Steady.getD (fun _ _ => ?_) ?_
      | with_reducible refine Steady.foldState (fun _ _ _ => ?_) ?_
      | with_reducible refine Steady.foldl (fun _ _ _ => ?_) _ ?_
      | with_reducible refine Steady.choice ?_ ?_
      | split
      | with_reducible apply Steady.upd

theorem State.afterSignal_steady {a : State} {s : State} (hk : Steady a s) : Steady a (State.afterSignal s) := by
  unfold State.afterSignal
  repeat' first
    | with_reducible assumption
    | intro _
    | (extract_lets +onlyGivenNames v; refine Steady.cut (v := v) ?_ (fun _ => ?_); rotate_left; clear_value v; revert v; intros; rotate_right; unfold v; clear v)
    | (extract_lets +onlyGivenNames v; clear_value v; revert v; intros)
    | with_reducible apply State.repayLink_steady
    | with_reducible apply State.serveHeld_steady
    | with_reducible refine Steady.foldState (fun _ _ _ => ?_) ?_
    | with_reducible refine Steady.foldl (fun _ _ _ => ?_) _ ?_
    | with_reducible refine Steady.choice ?_ ?_
    | split
    | with_reducible apply Steady.upd

theorem State.showAvail_steady {a : State} {s : State} (hk : Steady a s) : Steady a (State.showAvail s) := by
  unfold State.showAvail
  repeat' first
    | with_reducible assumption
    | intro _
    | (extract_lets +onlyGivenNames v; refine Steady.cut (v := v) ?_ (fun _ => ?_); rotate_left; clear_value v; revert v; intros; rotate_right; unfold v; clear v)
    | (extract_lets +onlyGivenNames v; clear_value v; revert v; intros)
    | with_reducible apply State.setFld_steady
    | with_reducible refine Steady.foldState (fun _ _ _ => ?_) ?_
    | with_reducible refine Steady.foldl (fun _ _ _ => ?_) _ ?_
    | with_reducible refine Steady.choice ?_ ?_
    | split
    | with_reducible apply Steady.upd

theorem State.setDom_steady {a : State} {s : State} (d : Nat) (q : Dom) (hk : Steady a s) : Steady a (State.setDom s d q) := by
  unfold State.setDom
  repeat' first
    | with_reducible assumption
    | intro _
    | (extract_lets +onlyGivenNames v; refine Steady.cut (v := v) ?_ (fun _ => ?_); rotate_left; clear_value v; revert v; intros; rotate_right; unfold v; clear v)
    | (extract_lets +onlyGivenNames v; clear_value v; revert v; intros)
    | with_reducible refine Steady.foldState (fun _ _ _ => ?_) ?_
    | with_reducible refine Steady.foldl (fun _ _ _ => ?_) _ ?_
    | with_reducible refine Steady.choice ?_ ?_
    | split
    | with_reducible apply Steady.upd

theorem State.modDom_steady {a : State} {s : State} (d : Nat) (f : Dom → Dom) (hk : Steady a s) : Steady a (State.modDom s d f) := by
  unfold State.modDom
  repeat' first
    | with_reducible assumption
    | intro _
    | (extract_lets +onlyGivenNames v; refine Steady.cut (v := v) ?_ (fun _ => ?_); rotate_left; clear_value v; revert v; intros; rotate_right; unfold v; clear v)
    | (extract_lets +onlyGivenNames v; clear_value v; revert v; intros)
    | with_reducible apply State.setDom_steady
    | with_reducible refine Steady.foldState (fun _ _ _ => ?_) ?_
    | with_reducible refine Steady.foldl (fun _ _ _ => ?_) _ ?_
    | with_reducible refine Steady.choice ?_ ?_
    | split
    | with_reducible apply Steady.upd

theorem State.ageAvail_steady {a : State} {s : State} (hk : Steady a s) : Steady a (State.ageAvail s) := by
  unfold State.ageAvail
  repeat' first
    | with_reducible assumption
    | intro _
    | (extract_lets +onlyGivenNames v; refine Steady.cut (v := v) ?_ (fun _ => ?_); rotate_left; clear_value v; revert v; intros; rotate_right; unfold v; clear v)
    | (extract_lets +onlyGivenNames v; clear_value v; revert v; intros)
    | with_reducible apply State.showAvail_steady
    | with_reducible apply State.modDom_steady
    | with_reducible refine Steady.foldState (fun _ _ _ => ?_) ?_
    | with_reducible refine Steady.foldl (fun _ _ _ => ?_) _ ?_
    | with_reducible refine Steady.choice ?_ ?_
    | split
    | with_reducible apply Steady.upd

theorem State.aimAt_steady {a : State} {s : State} (d : Nat) (g : Nat) (hk : Steady a s) : Steady a (State.aimAt s d g) := by
  unfold State.aimAt
  repeat' first
    | with_reducible assumption
    | intro _
    | (extract_lets +onlyGivenNames v; refine Steady.cut (v := v) ?_ (fun _ => ?_); rotate_left; clear_value v; revert v; intros; rotate_right; unfold v; clear v)
    | (extract_lets +onlyGivenNames v; clear_value v; revert v; intros)
    | with_reducible apply State.setBit_steady
    | with_reducible apply State.modDom_steady
    | with_reducible apply State.setFld_steady
    | with_reducible refine Steady.foldState (fun _ _ _ => ?_) ?_
    | with_reducible refine Steady.foldl (fun _ _ _ => ?_) _ ?_
    | with_reducible refine Steady.choice ?_ ?_
    | split
    | with_reducible apply Steady.upd

theorem State.answer_steady {a : State} {s : State} (p : Nat) (uid : Nat) (code : Nat) (info : Word) (hk : Steady a s) : Steady a (State.answer s p uid code info) := by
  unfold State.answer
  repeat' first
    | with_reducible assumption
    | intro _
    | (extract_lets +onlyGivenNames v; refine Steady.cut (v := v) ?_ (fun _ => ?_); rotate_left; clear_value v; revert v; intros; rotate_right; unfold v; clear v)
    | (extract_lets +onlyGivenNames v; clear_value v; revert v; intros)
    | with_reducible apply State.modReq_steady
    | with_reducible refine Steady.foldState (fun _ _ _ => ?_) ?_
    | with_reducible refine Steady.foldl (fun _ _ _ => ?_) _ ?_
    | with_reducible refine Steady.choice ?_ ?_
    | split
    | with_reducible apply Steady.upd

theorem State.answerControl_steady {a : State} {s : State} (h : Pkt) (code : Nat) (data : List Byte) (hk : Steady a s) : Steady a (State.answerControl s h code data) := by
  unfold State.answerControl
  repeat' first
    | with_reducible assumption
    | intro _
    | (extract_lets +onlyGivenNames v; refine Steady.cut (v := v) ?_ (fun _ => ?_); rotate_left; clear_value v; revert v; intros; rotate_right; unfold v; clear v)
    | (extract_lets +onlyGivenNames v; clear_value v; revert v; intros)
    | with_reducible apply State.send_steady
    | with_reducible refine Steady.foldState (fun _ _ _ => ?_) ?_
    | with_reducible refine Steady.foldl (fun _ _ _ => ?_) _ ?_
    | with_reducible refine Steady.choice ?_ ?_
    | split
    | with_reducible apply Steady.upd

theorem State.answerPower_steady {a : State} {s : State} (hk : Steady a s) : Steady a (State.answerPower s) := by
  unfold State.answerPower
  repeat' first
    | with_reducible assumption
    | intro _
    | (extract_lets +onlyGivenNames v; refine Steady.cut (v := v) ?_ (fun _ => ?_); rotate_left; clear_value v; revert v; intros; rotate_right; unfold v; clear v)
    | (extract_lets +onlyGivenNames v; clear_value v; revert v; intros)
    | with_reducible apply State.outcome_steady
    | with_reducible refine Steady.foldState (fun _ _ _ => ?_) ?_
    | with_reducible refine Steady.foldl (fun _ _ _ => ?_) _ ?_
    | with_reducible refine Steady.choice ?_ ?_
    | split
    | with_reducible apply Steady.upd

theorem State.answerTp_steady {a : State} {s : State} (h : Pkt) (type : Nat) (code : Nat) (blank : Bool) (data : List Byte) (hk : Steady a s) : Steady a (State.answerTp s h type code blank data) := by
  unfold State.answerTp
  repeat' first
    | with_reducible assumption
    | intro _
    | (extract_lets +onlyGivenNames v; refine Steady.cut (v := v) ?_ (fun _ => ?_); rotate_left; clear_value v; revert v; intros; rotate_right; unfold v; clear v)
    | (extract_lets +onlyGivenNames v; clear_value v; revert v; intros)
    | with_reducible apply State.send_steady
    | with_reducible refine Steady.foldState (fun _ _ _ => ?_) ?_
    | with_reducible refine Steady.foldl (fun _ _ _ => ?_) _ ?_
    | with_reducible refine Steady.choice ?_ ?_
    | split
    | with_reducible apply Steady.upd

theorem State.dropSignal_steady {a : State} {s : State} (t : TSig) (hk : Steady a s) : Steady a (State.dropSignal s t) := by
  unfold State.dropSignal
  repeat' first
    | with_reducible assumption
    | intro _
    | (extract_lets +onlyGivenNames v; refine Steady.cut (v := v) ?_ (fun _ => ?_); rotate_left; clear_value v; revert v; intros; rotate_right; unfold v; clear v)
    | (extract_lets +onlyGivenNames v; clear_value v; revert v; intros)
    | with_reducible refine Steady.foldState (fun _ _ _ => ?_) ?_
    | with_reducible refine Steady.foldl (fun _ _ _ => ?_) _ ?_
    | with_reducible refine Steady.choice ?_ ?_
    | split
    | with_reducible apply Steady.upd

theorem State.putFlg_steady {a : State} {s : State} (n : Nat) (v : Bool) (m : Modif) (hk : Steady a s) : Steady a (State.putFlg s n v m) := by
  unfold State.putFlg
  repeat' first
    | with_reducible assumption
    | intro _
    | (extract_lets +onlyGivenNames v; refine Steady.cut (v := v) ?_ (fun _ => ?_); rotate_left; clear_value v; revert v; intros; rotate_right; unfold v; clear v)
    | (extract_lets +onlyGivenNames v; clear_value v; revert v; intros)
    | with_reducible apply State.markWaits_steady
    | with_reducible apply State.moved_steady
    | with_reducible refine Steady.foldState (fun _ _ _ => ?_) ?_
    | with_reducible refine Steady.foldl (fun _ _ _ => ?_) _ ?_
    | with_reducible refine Steady.choice ?_ ?_
    | split
    | with_reducible apply Steady.upd

theorem State.applySignal_steady {a s out : State} {t : TSig} {n : Nat} (e : State.applySignal s t n = some out) (hk : Steady a s) : Steady a out := by
  unfold State.applySignal at e
  try dsimp only at e
  repeat' split at e
  all_goals try cases e
  repeat' first
    | with_reducible assumption
    | intro _
    | (extract_lets +onlyGivenNames v; refine Steady.cut (v := v) ?_ (fun _ => ?_); rotate_left; clear_value v; revert v; intros; rotate_right; unfold v; clear v)
    | (extract_lets +onlyGivenNames v; clear_value v; revert v; intros)
    | with_reducible apply State.putFlg_steady
    | with_reducible apply State.addCtr_steady
    | with_reducible refine Steady.foldState (fun _ _ _ => ?_) ?_
    | with_reducible refine Steady.foldl (fun _ _ _ => ?_) _ ?_
    | with_reducible refine Steady.choice ?_ ?_
    | split
    | with_reducible apply Steady.upd

theorem State.applyDue_steady {a : State} {s : State} (hk : Steady a s) : Steady a (State.applyDue s) := by
  unfold State.applyDue
  repeat' first
    | with_reducible assumption
    | intro _
    | (extract_lets +onlyGivenNames v; refine Steady.cut (v := v) ?_ (fun _ => ?_); rotate_left; clear_value v; revert v; intros; rotate_right; unfold v; clear v)
    | (extract_lets +onlyGivenNames v; clear_value v; revert v; intros)
    | with_reducible apply State.afterSignal_steady
    | with_reducible apply State.dropSignal_steady
    | with_reducible apply State.bump_steady
    | refine State.applySignal_steady (by assumption) ?_
    | refine Steady.getD (fun _ _ => ?_) ?_
    | with_reducible refine Steady.foldState (fun _ _ _ => ?_) ?_
    | with_reducible refine Steady.foldl (fun _ _ _ => ?_) _ ?_
    | with_reducible refine Steady.choice ?_ ?_
    | split
    | with_reducible apply Steady.upd

theorem State.freeBatch_steady {a : State} {s : State} (b : Nat) (hk : Steady a s) : Steady a (State.freeBatch s b) := by
  unfold State.freeBatch
  repeat' first
    | with_reducible assumption
    | intro _
    | (extract_lets +onlyGivenNames v; refine Steady.cut (v := v) ?_ (fun _ => ?_); rotate_left; clear_value v; revert v; intros; rotate_right; unfold v; clear v)
    | (extract_lets +onlyGivenNames v; clear_value v; revert v; intros)
    | with_reducible refine Steady.foldState (fun _ _ _ => ?_) ?_
    | with_reducible refine Steady.foldl (fun _ _ _ => ?_) _ ?_
    | with_reducible refine Steady.choice ?_ ?_
    | split
    | with_reducible apply Steady.upd

theorem State.closeBatch_steady {a s out : State} {b : Nat} {e : OBatch} {h : Pkt} {data : List Byte} (e : State.closeBatch s b e h data = some out) (hk : Steady a s) : Steady a out := by
  unfold State.closeBatch at e
  try dsimp only at e
  repeat' split at e
  all_goals try cases e
  repeat' first
    | with_reducible assumption
    | intro _
    | (extract_lets +onlyGivenNames v; refine Steady.cut (v := v) ?_ (fun _ => ?_); rotate_left; clear_value v; revert v; intros; rotate_right; unfold v; clear v)
    | (extract_lets +onlyGivenNames v; clear_value v; revert v; intros)
    | with_reducible apply State.freeBatch_steady
    | with_reducible apply State.rnack_steady
    | with_reducible apply State.addCtr_steady
    | with_reducible refine Steady.foldState (fun _ _ _ => ?_) ?_
    | with_reducible refine Steady.foldl (fun _ _ _ => ?_) _ ?_
    | with_reducible refine Steady.choice ?_ ?_
    | split
    | with_reducible apply Steady.upd

theorem State.applyRpHeld_steady {a : State} {s : State} (hk : Steady a s) : Steady a (State.applyRpHeld s) := by
  unfold State.applyRpHeld
  repeat' first
    | with_reducible assumption
    | intro _
    | (extract_lets +onlyGivenNames v; refine Steady.cut (v := v) ?_ (fun _ => ?_); rotate_left; clear_value v; revert v; intros; rotate_right; unfold v; clear v)
    | (extract_lets +onlyGivenNames v; clear_value v; revert v; intros)
    | with_reducible apply State.afterSignal_steady
    | with_reducible apply State.dropSignal_steady
    | refine State.applySignal_steady (by assumption) ?_
    | refine State.closeBatch_steady (by assumption) ?_
    | refine Steady.getD (fun _ _ => ?_) ?_
    | with_reducible refine Steady.foldState (fun _ _ _ => ?_) ?_
    | with_reducible refine Steady.foldl (fun _ _ _ => ?_) _ ?_
    | with_reducible refine Steady.choice ?_ ?_
    | split
    | with_reducible apply Steady.upd

theorem State.arrive_steady {a s : State} (g : Nat) (hk : Steady a s) : Steady a (State.arrive s g) := by
  unfold State.arrive
  extract_lets q step r
  have hs : ∀ (l : List Access) (st : State × List Nat × List Access), Steady a st.1 → Steady a (l.foldl step st).1 := by
    intro l
    induction l with
    | nil => exact fun _ h => h
    | cons x l ih =>
      intro st h
      refine ih _ ?_
      obtain ⟨s1, stop, rest⟩ := st
      dsimp only [step] at h ⊢
      split
      · exact h
      · dsimp only
        split
        · exact State.modPort_steady _ _ (State.modGroup_steady g _ h)
        · exact State.modGroup_steady g _ h
  exact State.modGroup_steady _ _ (hs _ _ hk)

theorem State.arrivePkt_steady {a : State} {s : State} (h : Pkt) (data : List Byte) (arrival : Word) (hk : Steady a s) : Steady a (State.arrivePkt s h data arrival) := by
  unfold State.arrivePkt
  repeat' first
    | with_reducible assumption
    | intro _
    | (extract_lets +onlyGivenNames v; refine Steady.cut (v := v) ?_ (fun _ => ?_); rotate_left; clear_value v; revert v; intros; rotate_right; unfold v; clear v)
    | (extract_lets +onlyGivenNames v; clear_value v; revert v; intros)
    | refine State.takePkt_steady (by assumption) ?_
    | refine Steady.getD (fun _ _ => ?_) ?_
    | with_reducible refine Steady.foldState (fun _ _ _ => ?_) ?_
    | with_reducible refine Steady.foldl (fun _ _ _ => ?_) _ ?_
    | with_reducible refine Steady.choice ?_ ?_
    | split
    | with_reducible apply Steady.upd

theorem State.vpcTouch_steady {a : State} {s : State} (p : Nat) (la : Nat) (data : List Byte) (hk : Steady a s) : Steady a (State.vpcTouch s p la data) := by
  unfold State.vpcTouch
  repeat' first
    | with_reducible assumption
    | intro _
    | (extract_lets +onlyGivenNames v; refine Steady.cut (v := v) ?_ (fun _ => ?_); rotate_left; clear_value v; revert v; intros; rotate_right; unfold v; clear v)
    | (extract_lets +onlyGivenNames v; clear_value v; revert v; intros)
    | with_reducible apply State.modPort_steady
    | with_reducible refine Steady.foldState (fun _ _ _ => ?_) ?_
    | with_reducible refine Steady.foldl (fun _ _ _ => ?_) _ ?_
    | with_reducible refine Steady.choice ?_ ?_
    | split
    | with_reducible apply Steady.upd

theorem State.vpcFill_steady {a : State} {s : State} (p : Nat) (r : Req) (wasHeld : Bool) (bank : Bool) (la : Nat) (code : Nat) (data : List Byte) (hk : Steady a s) : Steady a (State.vpcFill s p r wasHeld bank la code data) := by
  unfold State.vpcFill
  repeat' first
    | with_reducible assumption
    | intro _
    | (extract_lets +onlyGivenNames v; refine Steady.cut (v := v) ?_ (fun _ => ?_); rotate_left; clear_value v; revert v; intros; rotate_right; unfold v; clear v)
    | (extract_lets +onlyGivenNames v; clear_value v; revert v; intros)
    | with_reducible apply State.bump_steady
    | with_reducible apply State.vpcTouch_steady
    | with_reducible apply State.vpcDrop_steady
    | with_reducible refine Steady.foldState (fun _ _ _ => ?_) ?_
    | with_reducible refine Steady.foldl (fun _ _ _ => ?_) _ ?_
    | with_reducible refine Steady.choice ?_ ?_
    | split
    | with_reducible apply Steady.upd

theorem State.modRow_steady {a : State} {s : State} (d : Dest) (f : Row → Row) (hk : Steady a s) : Steady a (State.modRow s d f) := by
  unfold State.modRow
  repeat' first
    | with_reducible assumption
    | intro _
    | (extract_lets +onlyGivenNames v; refine Steady.cut (v := v) ?_ (fun _ => ?_); rotate_left; clear_value v; revert v; intros; rotate_right; unfold v; clear v)
    | (extract_lets +onlyGivenNames v; clear_value v; revert v; intros)
    | with_reducible apply State.modReq_steady
    | with_reducible apply State.modPort_steady
    | with_reducible refine Steady.foldState (fun _ _ _ => ?_) ?_
    | with_reducible refine Steady.foldl (fun _ _ _ => ?_) _ ?_
    | with_reducible refine Steady.choice ?_ ?_
    | split
    | with_reducible apply Steady.upd

theorem State.countRepair_steady {a : State} {s : State} (d : Dest) (hk : Steady a s) : Steady a (State.countRepair s d) := by
  unfold State.countRepair
  repeat' first
    | with_reducible assumption
    | intro _
    | (extract_lets +onlyGivenNames v; refine Steady.cut (v := v) ?_ (fun _ => ?_); rotate_left; clear_value v; revert v; intros; rotate_right; unfold v; clear v)
    | (extract_lets +onlyGivenNames v; clear_value v; revert v; intros)
    | with_reducible apply State.bump_steady
    | with_reducible apply State.modRow_steady
    | with_reducible refine Steady.foldState (fun _ _ _ => ?_) ?_
    | with_reducible refine Steady.foldl (fun _ _ _ => ?_) _ ?_
    | with_reducible refine Steady.choice ?_ ?_
    | split
    | with_reducible apply Steady.upd

theorem State.setLine_steady {a : State} {s : State} (p : Nat) (uid : Nat) (i : Nat) (j : Nat) (st : LineSt) (hk : Steady a s) : Steady a (State.setLine s p uid i j st) := by
  unfold State.setLine
  repeat' first
    | with_reducible assumption
    | intro _
    | (extract_lets +onlyGivenNames v; refine Steady.cut (v := v) ?_ (fun _ => ?_); rotate_left; clear_value v; revert v; intros; rotate_right; unfold v; clear v)
    | (extract_lets +onlyGivenNames v; clear_value v; revert v; intros)
    | with_reducible apply State.modReq_steady
    | with_reducible refine Steady.foldState (fun _ _ _ => ?_) ?_
    | with_reducible refine Steady.foldl (fun _ _ _ => ?_) _ ?_
    | with_reducible refine Steady.choice ?_ ?_
    | split
    | with_reducible apply Steady.upd

theorem State.packetLine_steady {a : State} {s : State} (pk : Nat) (code : Nat) (hk : Steady a s) : Steady a (State.packetLine s pk code) := by
  unfold State.packetLine
  repeat' first
    | with_reducible assumption
    | intro _
    | (extract_lets +onlyGivenNames v; refine Steady.cut (v := v) ?_ (fun _ => ?_); rotate_left; clear_value v; revert v; intros; rotate_right; unfold v; clear v)
    | (extract_lets +onlyGivenNames v; clear_value v; revert v; intros)
    | with_reducible apply State.batchDone_steady
    | with_reducible apply State.setFld_steady
    | with_reducible refine Steady.foldState (fun _ _ _ => ?_) ?_
    | with_reducible refine Steady.foldl (fun _ _ _ => ?_) _ ?_
    | with_reducible refine Steady.choice ?_ ?_
    | split
    | with_reducible apply Steady.upd

theorem State.await_steady {a : State} {s : State} (w : TAwait) (hk : Steady a s) : Steady a (State.await s w) := by
  unfold State.await
  repeat' first
    | with_reducible assumption
    | intro _
    | (extract_lets +onlyGivenNames v; refine Steady.cut (v := v) ?_ (fun _ => ?_); rotate_left; clear_value v; revert v; intros; rotate_right; unfold v; clear v)
    | (extract_lets +onlyGivenNames v; clear_value v; revert v; intros)
    | with_reducible apply State.send_steady
    | with_reducible refine Steady.foldState (fun _ _ _ => ?_) ?_
    | with_reducible refine Steady.foldl (fun _ _ _ => ?_) _ ?_
    | with_reducible refine Steady.choice ?_ ?_
    | split
    | with_reducible apply Steady.upd

theorem State.sendMirror_steady {a : State} {s : State} (rgn : Nat) (la : Nat) (lb : Nat) (ix : Nat) (data : List Byte) (d : Dest) (fx : Bool × Bool) (hk : Steady a s) : Steady a (State.sendMirror s rgn la lb ix data d fx) := by
  unfold State.sendMirror
  repeat' first
    | with_reducible assumption
    | intro _
    | (extract_lets +onlyGivenNames v; refine Steady.cut (v := v) ?_ (fun _ => ?_); rotate_left; clear_value v; revert v; intros; rotate_right; unfold v; clear v)
    | (extract_lets +onlyGivenNames v; clear_value v; revert v; intros)
    | with_reducible apply State.await_steady
    | with_reducible refine Steady.foldState (fun _ _ _ => ?_) ?_
    | with_reducible refine Steady.foldl (fun _ _ _ => ?_) _ ?_
    | with_reducible refine Steady.choice ?_ ?_
    | split
    | with_reducible apply Steady.upd

theorem State.resyncLine_steady {a : State} {s : State} (la : Nat) (code : Nat) (data : List Byte) (hk : Steady a s) : Steady a (State.resyncLine s la code data) := by
  unfold State.resyncLine
  repeat' first
    | with_reducible assumption
    | intro _
    | (extract_lets +onlyGivenNames v; refine Steady.cut (v := v) ?_ (fun _ => ?_); rotate_left; clear_value v; revert v; intros; rotate_right; unfold v; clear v)
    | (extract_lets +onlyGivenNames v; clear_value v; revert v; intros)
    | with_reducible apply State.sendMirror_steady
    | with_reducible refine Steady.foldState (fun _ _ _ => ?_) ?_
    | with_reducible refine Steady.foldl (fun _ _ _ => ?_) _ ?_
    | with_reducible refine Steady.choice ?_ ?_
    | split
    | with_reducible apply Steady.upd

theorem State.deliver_steady {a : State} {s : State} (d : Dest) (la : Nat) (code : Nat) (blank : Bool) (data : List Byte) (hk : Steady a s) : Steady a (State.deliver s d la code blank data) := by
  unfold State.deliver
  repeat' first
    | with_reducible assumption
    | intro _
    | (extract_lets +onlyGivenNames v; refine Steady.cut (v := v) ?_ (fun _ => ?_); rotate_left; clear_value v; revert v; intros; rotate_right; unfold v; clear v)
    | (extract_lets +onlyGivenNames v; clear_value v; revert v; intros)
    | with_reducible apply State.vpcFill_steady
    | with_reducible apply State.countRepair_steady
    | with_reducible apply State.setLine_steady
    | with_reducible apply State.modRow_steady
    | with_reducible apply State.packetLine_steady
    | with_reducible apply State.answerTp_steady
    | with_reducible apply State.resyncLine_steady
    | with_reducible refine Steady.foldState (fun _ _ _ => ?_) ?_
    | with_reducible refine Steady.foldl (fun _ _ _ => ?_) _ ?_
    | with_reducible refine Steady.choice ?_ ?_
    | split
    | with_reducible apply Steady.upd

theorem State.notStored_steady {a : State} {s : State} (a1 : Access) (hk : Steady a s) : Steady a (State.notStored s a1) := by
  unfold State.notStored
  repeat' first
    | with_reducible assumption
    | intro _
    | (extract_lets +onlyGivenNames v; refine Steady.cut (v := v) ?_ (fun _ => ?_); rotate_left; clear_value v; revert v; intros; rotate_right; unfold v; clear v)
    | (extract_lets +onlyGivenNames v; clear_value v; revert v; intros)
    | with_reducible apply State.setBit_steady
    | with_reducible apply State.bump_steady
    | with_reducible apply State.deliver_steady
    | with_reducible refine Steady.foldState (fun _ _ _ => ?_) ?_
    | with_reducible refine Steady.foldl (fun _ _ _ => ?_) _ ?_
    | with_reducible refine Steady.choice ?_ ?_
    | split
    | with_reducible apply Steady.upd

theorem State.repairFailed_steady {a : State} {s : State} (a1 : Access) (hk : Steady a s) : Steady a (State.repairFailed s a1) := by
  unfold State.repairFailed
  repeat' first
    | with_reducible assumption
    | intro _
    | (extract_lets +onlyGivenNames v; refine Steady.cut (v := v) ?_ (fun _ => ?_); rotate_left; clear_value v; revert v; intros; rotate_right; unfold v; clear v)
    | (extract_lets +onlyGivenNames v; clear_value v; revert v; intros)
    | with_reducible apply State.bump_steady
    | with_reducible apply State.setBit_steady
    | with_reducible apply State.deliver_steady
    | with_reducible apply State.notStored_steady
    | with_reducible refine Steady.foldState (fun _ _ _ => ?_) ?_
    | with_reducible refine Steady.foldl (fun _ _ _ => ?_) _ ?_
    | with_reducible refine Steady.choice ?_ ?_
    | split
    | with_reducible apply Steady.upd

theorem State.sendFetch_steady {a : State} {s : State} (rgn : Nat) (la : Nat) (lb : Nat) (ix : Nat) (d : Dest) (redo : Option Access) (hk : Steady a s) : Steady a (State.sendFetch s rgn la lb ix d redo) := by
  unfold State.sendFetch
  repeat' first
    | with_reducible assumption
    | intro _
    | (extract_lets +onlyGivenNames v; refine Steady.cut (v := v) ?_ (fun _ => ?_); rotate_left; clear_value v; revert v; intros; rotate_right; unfold v; clear v)
    | (extract_lets +onlyGivenNames v; clear_value v; revert v; intros)
    | with_reducible apply State.await_steady
    | with_reducible refine Steady.foldState (fun _ _ _ => ?_) ?_
    | with_reducible refine Steady.foldl (fun _ _ _ => ?_) _ ?_
    | with_reducible refine Steady.choice ?_ ?_
    | split
    | with_reducible apply Steady.upd

theorem State.awaitRepair_steady {a : State} {s : State} (d : Dest) (hk : Steady a s) : Steady a (State.awaitRepair s d) := by
  unfold State.awaitRepair
  repeat' first
    | with_reducible assumption
    | intro _
    | (extract_lets +onlyGivenNames v; refine Steady.cut (v := v) ?_ (fun _ => ?_); rotate_left; clear_value v; revert v; intros; rotate_right; unfold v; clear v)
    | (extract_lets +onlyGivenNames v; clear_value v; revert v; intros)
    | with_reducible apply State.setLine_steady
    | with_reducible refine Steady.foldState (fun _ _ _ => ?_) ?_
    | with_reducible refine Steady.foldl (fun _ _ _ => ?_) _ ?_
    | with_reducible refine Steady.choice ?_ ?_
    | split
    | with_reducible apply Steady.upd

theorem State.repairLine_steady {a : State} {s : State} (a1 : Access) (hk : Steady a s) : Steady a (State.repairLine s a1) := by
  unfold State.repairLine
  repeat' first
    | with_reducible assumption
    | intro _
    | (extract_lets +onlyGivenNames v; refine Steady.cut (v := v) ?_ (fun _ => ?_); rotate_left; clear_value v; revert v; intros; rotate_right; unfold v; clear v)
    | (extract_lets +onlyGivenNames v; clear_value v; revert v; intros)
    | with_reducible apply State.deliver_steady
    | with_reducible apply State.repairFailed_steady
    | with_reducible apply State.sendFetch_steady
    | with_reducible apply State.awaitRepair_steady
    | with_reducible refine Steady.foldState (fun _ _ _ => ?_) ?_
    | with_reducible refine Steady.foldl (fun _ _ _ => ?_) _ ?_
    | with_reducible refine Steady.choice ?_ ?_
    | split
    | with_reducible apply Steady.upd

theorem State.asUe_steady {a : State} {s : State} (a1 : Access) (hk : Steady a s) : Steady a (State.asUe s a1) := by
  unfold State.asUe
  repeat' first
    | with_reducible assumption
    | intro _
    | (extract_lets +onlyGivenNames v; refine Steady.cut (v := v) ?_ (fun _ => ?_); rotate_left; clear_value v; revert v; intros; rotate_right; unfold v; clear v)
    | (extract_lets +onlyGivenNames v; clear_value v; revert v; intros)
    | with_reducible apply State.repairLine_steady
    | with_reducible apply State.setMeta_steady
    | with_reducible apply State.deliver_steady
    | with_reducible apply State.notStored_steady
    | with_reducible refine Steady.foldState (fun _ _ _ => ?_) ?_
    | with_reducible refine Steady.foldl (fun _ _ _ => ?_) _ ?_
    | with_reducible refine Steady.choice ?_ ?_
    | split
    | with_reducible apply Steady.upd

theorem State.sendControl_steady {a : State} {s : State} (peer : Nat) (la : Nat) (data : List Byte) (hk : Steady a s) : Steady a (State.sendControl s peer la data) := by
  unfold State.sendControl
  repeat' first
    | with_reducible assumption
    | intro _
    | (extract_lets +onlyGivenNames v; refine Steady.cut (v := v) ?_ (fun _ => ?_); rotate_left; clear_value v; revert v; intros; rotate_right; unfold v; clear v)
    | (extract_lets +onlyGivenNames v; clear_value v; revert v; intros)
    | with_reducible apply State.await_steady
    | with_reducible refine Steady.foldState (fun _ _ _ => ?_) ?_
    | with_reducible refine Steady.foldl (fun _ _ _ => ?_) _ ?_
    | with_reducible refine Steady.choice ?_ ?_
    | split
    | with_reducible apply Steady.upd

theorem State.askPeer_steady {a : State} {s : State} (n : Nat) (ix : Nat) (msg : Nat) (data : List Byte) (hk : Steady a s) : Steady a (State.askPeer s n ix msg data) := by
  unfold State.askPeer
  repeat' first
    | with_reducible assumption
    | intro _
    | (extract_lets +onlyGivenNames v; refine Steady.cut (v := v) ?_ (fun _ => ?_); rotate_left; clear_value v; revert v; intros; rotate_right; unfold v; clear v)
    | (extract_lets +onlyGivenNames v; clear_value v; revert v; intros)
    | with_reducible apply State.setFld_steady
    | with_reducible apply State.sendControl_steady
    | with_reducible refine Steady.foldState (fun _ _ _ => ?_) ?_
    | with_reducible refine Steady.foldl (fun _ _ _ => ?_) _ ?_
    | with_reducible refine Steady.choice ?_ ?_
    | split
    | with_reducible apply Steady.upd

theorem State.askVid_steady {a : State} {s : State} (v : Nat) (hk : Steady a s) : Steady a (State.askVid s v) := by
  unfold State.askVid
  repeat' first
    | with_reducible assumption
    | intro _
    | (extract_lets +onlyGivenNames v; refine Steady.cut (v := v) ?_ (fun _ => ?_); rotate_left; clear_value v; revert v; intros; rotate_right; unfold v; clear v)
    | (extract_lets +onlyGivenNames v; clear_value v; revert v; intros)
    | with_reducible apply State.modDom_steady
    | with_reducible refine Steady.foldState (fun _ _ _ => ?_) ?_
    | with_reducible refine Steady.foldl (fun _ _ _ => ?_) _ ?_
    | with_reducible refine Steady.choice ?_ ?_
    | split
    | with_reducible apply Steady.upd

theorem State.askWhenFree_steady {a : State} {s : State} (v : Nat) (hk : Steady a s) : Steady a (State.askWhenFree s v) := by
  unfold State.askWhenFree
  repeat' first
    | with_reducible assumption
    | intro _
    | (extract_lets +onlyGivenNames v; refine Steady.cut (v := v) ?_ (fun _ => ?_); rotate_left; clear_value v; revert v; intros; rotate_right; unfold v; clear v)
    | (extract_lets +onlyGivenNames v; clear_value v; revert v; intros)
    | with_reducible apply State.askVid_steady
    | with_reducible refine Steady.foldState (fun _ _ _ => ?_) ?_
    | with_reducible refine Steady.foldl (fun _ _ _ => ?_) _ ?_
    | with_reducible refine Steady.choice ?_ ?_
    | split
    | with_reducible apply Steady.upd

theorem State.awaitMirror_steady {a : State} {s : State} (d : Dest) (hk : Steady a s) : Steady a (State.awaitMirror s d) := by
  unfold State.awaitMirror
  repeat' first
    | with_reducible assumption
    | intro _
    | (extract_lets +onlyGivenNames v; refine Steady.cut (v := v) ?_ (fun _ => ?_); rotate_left; clear_value v; revert v; intros; rotate_right; unfold v; clear v)
    | (extract_lets +onlyGivenNames v; clear_value v; revert v; intros)
    | with_reducible apply State.setLine_steady
    | with_reducible refine Steady.foldState (fun _ _ _ => ?_) ?_
    | with_reducible refine Steady.foldl (fun _ _ _ => ?_) _ ?_
    | with_reducible refine Steady.choice ?_ ?_
    | split
    | with_reducible apply Steady.upd

theorem State.resetRamps_steady {a : State} {s : State} (hk : Steady a s) : Steady a (State.resetRamps s) := by
  unfold State.resetRamps
  repeat' first
    | with_reducible assumption
    | intro _
    | (extract_lets +onlyGivenNames v; refine Steady.cut (v := v) ?_ (fun _ => ?_); rotate_left; clear_value v; revert v; intros; rotate_right; unfold v; clear v)
    | (extract_lets +onlyGivenNames v; clear_value v; revert v; intros)
    | with_reducible apply State.setFld_steady
    | with_reducible refine Steady.foldState (fun _ _ _ => ?_) ?_
    | with_reducible refine Steady.foldl (fun _ _ _ => ?_) _ ?_
    | with_reducible refine Steady.choice ?_ ?_
    | split
    | with_reducible apply Steady.upd

theorem State.backToPs0_steady {a : State} {s : State} (hk : Steady a s) : Steady a (State.backToPs0 s) := by
  unfold State.backToPs0
  repeat' first
    | with_reducible assumption
    | intro _
    | (extract_lets +onlyGivenNames v; refine Steady.cut (v := v) ?_ (fun _ => ?_); rotate_left; clear_value v; revert v; intros; rotate_right; unfold v; clear v)
    | (extract_lets +onlyGivenNames v; clear_value v; revert v; intros)
    | with_reducible apply State.setBit_steady
    | with_reducible apply State.setFld_steady
    | with_reducible apply State.setEntry_steady
    | with_reducible apply State.thaw_steady
    | with_reducible apply State.resetRamps_steady
    | with_reducible refine Steady.foldState (fun _ _ _ => ?_) ?_
    | with_reducible refine Steady.foldl (fun _ _ _ => ?_) _ ?_
    | with_reducible refine Steady.choice ?_ ?_
    | split
    | with_reducible apply Steady.upd

theorem State.countWait_steady {a : State} {s : State} (total : Nat) (a2 : Access) (hk : Steady a s) : Steady a (State.countWait s total a2) := by
  unfold State.countWait
  repeat' first
    | with_reducible assumption
    | intro _
    | (extract_lets +onlyGivenNames v; refine Steady.cut (v := v) ?_ (fun _ => ?_); rotate_left; clear_value v; revert v; intros; rotate_right; unfold v; clear v)
    | (extract_lets +onlyGivenNames v; clear_value v; revert v; intros)
    | with_reducible apply State.raise_steady
    | with_reducible apply State.bump_steady
    | with_reducible refine Steady.foldState (fun _ _ _ => ?_) ?_
    | with_reducible refine Steady.foldl (fun _ _ _ => ?_) _ ?_
    | with_reducible refine Steady.choice ?_ ?_
    | split
    | with_reducible apply Steady.upd

theorem State.checkerAccess_steady {a s : State} (x : Access) (pb : Nat) (hk : Steady a s) : Steady a (State.checkerAccess s x pb) := by
  unfold State.checkerAccess
  extract_lets h
  split
  · extract_lets b im
    refine State.deliver_steady _ _ _ _ _ (State.setBit_steady _ _ (hk.trans ?_))
    clear_value im
    exact ⟨rfl, rfl, rfl, rfl, rfl, Memory.wf_writeRun _ _ _, id, List.suffix_refl _, Nat.le_refl _, Nat.le_refl _⟩
  · exact State.deliver_steady _ _ _ _ _ hk

theorem State.deadWrite_steady {a : State} {s : State} (a1 : Access) (hk : Steady a s) : Steady a (State.deadWrite s a1) := by
  unfold State.deadWrite
  repeat' first
    | with_reducible assumption
    | intro _
    | (extract_lets +onlyGivenNames v; refine Steady.cut (v := v) ?_ (fun _ => ?_); rotate_left; clear_value v; revert v; intros; rotate_right; unfold v; clear v)
    | (extract_lets +onlyGivenNames v; clear_value v; revert v; intros)
    | with_reducible apply State.deliver_steady
    | with_reducible apply State.sendMirror_steady
    | with_reducible apply State.awaitMirror_steady
    | with_reducible apply State.repairLine_steady
    | with_reducible apply State.notStored_steady
    | with_reducible refine Steady.foldState (fun _ _ _ => ?_) ?_
    | with_reducible refine Steady.foldl (fun _ _ _ => ?_) _ ?_
    | with_reducible refine Steady.choice ?_ ?_
    | split
    | with_reducible apply Steady.upd

theorem State.record_steady {a : State} {s : State} (agent : Nat) (h : Home) (la : Option Nat) (j : Judged) (hk : Steady a s) : Steady a (State.record s agent h la j) := by
  unfold State.record
  repeat' first
    | with_reducible assumption
    | intro _
    | (extract_lets +onlyGivenNames v; refine Steady.cut (v := v) ?_ (fun _ => ?_); rotate_left; clear_value v; revert v; intros; rotate_right; unfold v; clear v)
    | (extract_lets +onlyGivenNames v; clear_value v; revert v; intros)
    | with_reducible apply State.setBit_steady
    | with_reducible apply State.bump_steady
    | with_reducible apply State.finding_steady
    | with_reducible refine Steady.foldState (fun _ _ _ => ?_) ?_
    | with_reducible refine Steady.foldl (fun _ _ _ => ?_) _ ?_
    | with_reducible refine Steady.choice ?_ ?_
    | split
    | with_reducible apply Steady.upd

theorem State.readLine_steady {a s : State} (agent : Nat) (h : Home) (la : Nat) (laKnown twin : Bool) (hk : Steady a s) :
    Steady a (State.readLine s agent h la laKnown twin).1 := by
  unfold State.readLine
  extract_lets j s1
  have h1 : Steady a s1 := State.record_steady _ _ _ _ hk
  clear_value s1 j
  split
  · dsimp only; split
    · exact h1
    · exact State.setMeta_steady _ _ _ h1
  · dsimp only; split
    · exact h1
    · exact State.setMeta_steady _ _ _ h1
  · exact h1

theorem State.readOutcome_steady {a : State} {s : State} (j : Judged) (a2 : Access) (hk : Steady a s) : Steady a (State.readOutcome s j a2) := by
  unfold State.readOutcome
  repeat' first
    | with_reducible assumption
    | intro _
    | (extract_lets +onlyGivenNames v; refine Steady.cut (v := v) ?_ (fun _ => ?_); rotate_left; clear_value v; revert v; intros; rotate_right; unfold v; clear v)
    | (extract_lets +onlyGivenNames v; clear_value v; revert v; intros)
    | with_reducible apply State.deliver_steady
    | with_reducible apply State.repairLine_steady
    | with_reducible refine Steady.foldState (fun _ _ _ => ?_) ?_
    | with_reducible refine Steady.foldl (fun _ _ _ => ?_) _ ?_
    | with_reducible refine Steady.choice ?_ ?_
    | split
    | with_reducible apply Steady.upd

theorem State.noticePort_steady {a : State} {s : State} (la : Nat) (p : Nat) (hk : Steady a s) : Steady a (State.noticePort s la p) := by
  unfold State.noticePort
  repeat' first
    | with_reducible assumption
    | intro _
    | (extract_lets +onlyGivenNames v; refine Steady.cut (v := v) ?_ (fun _ => ?_); rotate_left; clear_value v; revert v; intros; rotate_right; unfold v; clear v)
    | (extract_lets +onlyGivenNames v; clear_value v; revert v; intros)
    | with_reducible apply State.bump_steady
    | with_reducible apply State.modPort_steady
    | with_reducible refine Steady.foldState (fun _ _ _ => ?_) ?_
    | with_reducible refine Steady.foldl (fun _ _ _ => ?_) _ ?_
    | with_reducible refine Steady.choice ?_ ?_
    | split
    | with_reducible apply Steady.upd

theorem State.notice_steady {a : State} {s : State} (la : Nat) (hk : Steady a s) : Steady a (State.notice s la) := by
  unfold State.notice
  repeat' first
    | with_reducible assumption
    | intro _
    | (extract_lets +onlyGivenNames v; refine Steady.cut (v := v) ?_ (fun _ => ?_); rotate_left; clear_value v; revert v; intros; rotate_right; unfold v; clear v)
    | (extract_lets +onlyGivenNames v; clear_value v; revert v; intros)
    | with_reducible apply State.noticePort_steady
    | with_reducible refine Steady.foldState (fun _ _ _ => ?_) ?_
    | with_reducible refine Steady.foldl (fun _ _ _ => ?_) _ ?_
    | with_reducible refine Steady.choice ?_ ?_
    | split
    | with_reducible apply Steady.upd

theorem State.fxSeen_steady {a : State} {s : State} (rgn : Nat) (ovf : Bool) (nan : Bool) (d : Dest) (hk : Steady a s) : Steady a (State.fxSeen s rgn ovf nan d) := by
  unfold State.fxSeen
  repeat' first
    | with_reducible assumption
    | intro _
    | (extract_lets +onlyGivenNames v; refine Steady.cut (v := v) ?_ (fun _ => ?_); rotate_left; clear_value v; revert v; intros; rotate_right; unfold v; clear v)
    | (extract_lets +onlyGivenNames v; clear_value v; revert v; intros)
    | with_reducible apply State.setBit_steady
    | with_reducible apply State.modReq_steady
    | with_reducible refine Steady.foldState (fun _ _ _ => ?_) ?_
    | with_reducible refine Steady.foldl (fun _ _ _ => ?_) _ ?_
    | with_reducible refine Steady.choice ?_ ?_
    | split
    | with_reducible apply Steady.upd

theorem State.markDirty_steady {a : State} {s : State} (la : Nat) (hk : Steady a s) : Steady a (State.markDirty s la) := by
  unfold State.markDirty
  repeat' first
    | with_reducible assumption
    | intro _
    | (extract_lets +onlyGivenNames v; refine Steady.cut (v := v) ?_ (fun _ => ?_); rotate_left; clear_value v; revert v; intros; rotate_right; unfold v; clear v)
    | (extract_lets +onlyGivenNames v; clear_value v; revert v; intros)
    | with_reducible refine Steady.foldState (fun _ _ _ => ?_) ?_
    | with_reducible refine Steady.foldl (fun _ _ _ => ?_) _ ?_
    | with_reducible refine Steady.choice ?_ ?_
    | split
    | with_reducible apply Steady.upd

theorem State.committed_steady {a : State} {s : State} (a1 : Access) (data : List Byte) (ovf : Bool) (nan : Bool) (hk : Steady a s) : Steady a (State.committed s a1 data ovf nan) := by
  unfold State.committed
  repeat' first
    | with_reducible assumption
    | intro _
    | (extract_lets +onlyGivenNames v; refine Steady.cut (v := v) ?_ (fun _ => ?_); rotate_left; clear_value v; revert v; intros; rotate_right; unfold v; clear v)
    | (extract_lets +onlyGivenNames v; clear_value v; revert v; intros)
    | with_reducible apply State.notice_steady
    | with_reducible apply State.fxSeen_steady
    | with_reducible apply State.deliver_steady
    | with_reducible apply State.sendMirror_steady
    | with_reducible apply State.awaitMirror_steady
    | with_reducible apply State.markDirty_steady
    | with_reducible refine Steady.foldState (fun _ _ _ => ?_) ?_
    | with_reducible refine Steady.foldl (fun _ _ _ => ?_) _ ?_
    | with_reducible refine Steady.choice ?_ ?_
    | split
    | with_reducible apply Steady.upd

theorem State.commitLine_steady {a : State} {s : State} (lb : Nat) (ix : Nat) (la : Nat) (data : List Byte) (hk : Steady a s) : Steady a (State.commitLine s lb ix la data) := by
  unfold State.commitLine
  repeat' first
    | with_reducible assumption
    | intro _
    | (extract_lets +onlyGivenNames v; refine Steady.cut (v := v) ?_ (fun _ => ?_); rotate_left; clear_value v; revert v; intros; rotate_right; unfold v; clear v)
    | (extract_lets +onlyGivenNames v; clear_value v; revert v; intros)
    | with_reducible apply State.setImage_steady
    | with_reducible refine Steady.foldState (fun _ _ _ => ?_) ?_
    | with_reducible refine Steady.foldl (fun _ _ _ => ?_) _ ?_
    | with_reducible refine Steady.choice ?_ ?_
    | split
    | with_reducible apply Steady.upd

theorem State.perform_steady {a s : State} (x : Access) (folded : List Access) (hk : Steady a s) :
    Steady a (State.perform s x folded) := by
  unfold State.perform
  split
  · exact Steady.foldState (fun _ _ h => State.checkerAccess_steady _ _ h) hk
  · split
    · extract_lets s1
      have h1 : Steady a s1 := Steady.foldState (fun _ _ h => by
        split
        · exact State.repairLine_steady _ h
        · exact State.deliver_steady _ _ _ _ _ h) hk
      clear_value s1
      split
      · split
        · exact State.repairLine_steady _ h1
        · exact State.deliver_steady _ _ _ _ _ h1
      · exact State.deadWrite_steady _ h1
    · extract_lets h needsOld
      split
      rename_i s1 j e
      have h1 : Steady a s1 := by
        split at e
        · have := State.readLine_steady x.agent h x.la (laKnown x.agent) (s.twinLine x) hk
          rw [e] at this
          exact this
        · cases e
          exact hk
      clear e
      extract_lets s2
      have h2 : Steady a s2 := Steady.foldState (fun _ _ h => State.readOutcome_steady _ _ h) h1
      clear_value s2
      split
      · exact State.readOutcome_steady _ _ h2
      · split
        · exact State.committed_steady _ _ _ _ (State.commitLine_steady _ _ _ _ h2)
        · split
          · exact State.committed_steady _ _ _ _ (State.commitLine_steady _ _ _ _ h2)
          · split
            · exact State.repairLine_steady _ h2
            · exact State.notStored_steady _ h2

theorem State.shavingTrip_steady {a : State} {s : State} (sl : Nat) (sh : Shaving) (a3 : Access) (hk : Steady a s) : Steady a (State.shavingTrip s sl sh a3) := by
  unfold State.shavingTrip
  repeat' first
    | with_reducible assumption
    | intro _
    | (extract_lets +onlyGivenNames v; refine Steady.cut (v := v) ?_ (fun _ => ?_); rotate_left; clear_value v; revert v; intros; rotate_right; unfold v; clear v)
    | (extract_lets +onlyGivenNames v; clear_value v; revert v; intros)
    | with_reducible apply State.repairLine_steady
    | with_reducible apply State.setMeta_steady
    | with_reducible apply State.abandonShaving_steady
    | with_reducible apply State.accessFault_steady
    | with_reducible refine Steady.foldState (fun _ _ _ => ?_) ?_
    | with_reducible refine Steady.foldl (fun _ _ _ => ?_) _ ?_
    | with_reducible refine Steady.choice ?_ ?_
    | split
    | with_reducible apply Steady.upd

theorem State.tripped_steady {a : State} {s : State} (a1 : Access) (folded : List Access) (pb : Nat) (hk : Steady a s) : Steady a (State.tripped s a1 folded pb) := by
  unfold State.tripped
  repeat' first
    | with_reducible assumption
    | intro _
    | (extract_lets +onlyGivenNames v; refine Steady.cut (v := v) ?_ (fun _ => ?_); rotate_left; clear_value v; revert v; intros; rotate_right; unfold v; clear v)
    | (extract_lets +onlyGivenNames v; clear_value v; revert v; intros)
    | with_reducible apply State.perform_steady
    | with_reducible apply State.accessFault_steady
    | with_reducible apply State.shavingTrip_steady
    | with_reducible apply State.asUe_steady
    | with_reducible refine Steady.foldState (fun _ _ _ => ?_) ?_
    | with_reducible refine Steady.foldl (fun _ _ _ => ?_) _ ?_
    | with_reducible refine Steady.choice ?_ ?_
    | split
    | with_reducible apply Steady.upd

theorem State.copyFrom_steady {a : State} {s : State} (src : Home) (dst : Home) (a3 : Access) (hk : Steady a s) : Steady a (State.copyFrom s src dst a3) := by
  unfold State.copyFrom
  repeat' first
    | with_reducible assumption
    | intro _
    | (extract_lets +onlyGivenNames v; refine Steady.cut (v := v) ?_ (fun _ => ?_); rotate_left; clear_value v; revert v; intros; rotate_right; unfold v; clear v)
    | (extract_lets +onlyGivenNames v; clear_value v; revert v; intros)
    | with_reducible apply State.setImage_steady
    | with_reducible apply State.record_steady
    | with_reducible apply State.repairLine_steady
    | with_reducible refine Steady.foldState (fun _ _ _ => ?_) ?_
    | with_reducible refine Steady.foldl (fun _ _ _ => ?_) _ ?_
    | with_reducible refine Steady.choice ?_ ?_
    | split
    | with_reducible apply Steady.upd

theorem State.copyLine_steady {a : State} {s : State} (sl : Nat) (m : Migr) (a3 : Access) (hk : Steady a s) : Steady a (State.copyLine s sl m a3) := by
  unfold State.copyLine
  repeat' first
    | with_reducible assumption
    | intro _
    | (extract_lets +onlyGivenNames v; refine Steady.cut (v := v) ?_ (fun _ => ?_); rotate_left; clear_value v; revert v; intros; rotate_right; unfold v; clear v)
    | (extract_lets +onlyGivenNames v; clear_value v; revert v; intros)
    | with_reducible apply State.copyFrom_steady
    | with_reducible apply State.setMeta_steady
    | with_reducible apply State.setFld_steady
    | with_reducible apply State.modSlice_steady
    | with_reducible refine Steady.foldState (fun _ _ _ => ?_) ?_
    | with_reducible refine Steady.foldl (fun _ _ _ => ?_) _ ?_
    | with_reducible refine Steady.choice ?_ ?_
    | split
    | with_reducible apply Steady.upd

theorem State.calibrate_steady {a : State} {s : State} (pb : Nat) (lb : Nat) (m : Nat) (hk : Steady a s) : Steady a (State.calibrate s pb lb m) := by
  unfold State.calibrate
  repeat' first
    | with_reducible assumption
    | intro _
    | (extract_lets +onlyGivenNames v; refine Steady.cut (v := v) ?_ (fun _ => ?_); rotate_left; clear_value v; revert v; intros; rotate_right; unfold v; clear v)
    | (extract_lets +onlyGivenNames v; clear_value v; revert v; intros)
    | with_reducible apply State.setBit_steady
    | with_reducible apply State.setFld_steady
    | with_reducible apply State.hardFault_steady
    | with_reducible refine Steady.foldState (fun _ _ _ => ?_) ?_
    | with_reducible refine Steady.foldl (fun _ _ _ => ?_) _ ?_
    | with_reducible refine Steady.choice ?_ ?_
    | split
    | with_reducible apply Steady.upd

theorem State.finishShaving_steady {a : State} {s : State} (sl : Nat) (sh : Shaving) (hk : Steady a s) : Steady a (State.finishShaving s sl sh) := by
  unfold State.finishShaving
  repeat' first
    | with_reducible assumption
    | intro _
    | (extract_lets +onlyGivenNames v; refine Steady.cut (v := v) ?_ (fun _ => ?_); rotate_left; clear_value v; revert v; intros; rotate_right; unfold v; clear v)
    | (extract_lets +onlyGivenNames v; clear_value v; revert v; intros)
    | with_reducible apply State.calibrate_steady
    | with_reducible apply State.endShaving_steady
    | with_reducible refine Steady.foldState (fun _ _ _ => ?_) ?_
    | with_reducible refine Steady.foldl (fun _ _ _ => ?_) _ ?_
    | with_reducible refine Steady.choice ?_ ?_
    | split
    | with_reducible apply Steady.upd

theorem State.nextLine_steady {a : State} {s : State} (sl : Nat) (sh : Shaving) (hk : Steady a s) : Steady a (State.nextLine s sl sh) := by
  unfold State.nextLine
  repeat' first
    | with_reducible assumption
    | intro _
    | (extract_lets +onlyGivenNames v; refine Steady.cut (v := v) ?_ (fun _ => ?_); rotate_left; clear_value v; revert v; intros; rotate_right; unfold v; clear v)
    | (extract_lets +onlyGivenNames v; clear_value v; revert v; intros)
    | with_reducible apply State.modSlice_steady
    | with_reducible apply State.finishShaving_steady
    | with_reducible apply State.showShaving_steady
    | with_reducible refine Steady.foldState (fun _ _ _ => ?_) ?_
    | with_reducible refine Steady.foldl (fun _ _ _ => ?_) _ ?_
    | with_reducible refine Steady.choice ?_ ?_
    | split
    | with_reducible apply Steady.upd

theorem State.putPattern_steady {a : State} {s : State} (h : Home) (b : Byte) (hk : Steady a s) : Steady a (State.putPattern s h b) := by
  unfold State.putPattern
  repeat' first
    | with_reducible assumption
    | intro _
    | (extract_lets +onlyGivenNames v; refine Steady.cut (v := v) ?_ (fun _ => ?_); rotate_left; clear_value v; revert v; intros; rotate_right; unfold v; clear v)
    | (extract_lets +onlyGivenNames v; clear_value v; revert v; intros)
    | with_reducible apply State.setImage_steady
    | with_reducible refine Steady.foldState (fun _ _ _ => ?_) ?_
    | with_reducible refine Steady.foldl (fun _ _ _ => ?_) _ ?_
    | with_reducible refine Steady.choice ?_ ?_
    | split
    | with_reducible apply Steady.upd

theorem State.logFails_steady {a : State} {s : State} (sl : Nat) (sh : Shaving) (ix : Nat) (fails : List (Nat × Nat)) (hk : Steady a s) : Steady a (State.logFails s sl sh ix fails) := by
  unfold State.logFails
  repeat' first
    | with_reducible assumption
    | intro _
    | (extract_lets +onlyGivenNames v; refine Steady.cut (v := v) ?_ (fun _ => ?_); rotate_left; clear_value v; revert v; intros; rotate_right; unfold v; clear v)
    | (extract_lets +onlyGivenNames v; clear_value v; revert v; intros)
    | with_reducible apply State.setBit_steady
    | with_reducible apply State.bump_steady
    | with_reducible apply State.finding_steady
    | with_reducible apply State.modSlice_steady
    | with_reducible refine Steady.foldState (fun _ _ _ => ?_) ?_
    | with_reducible refine Steady.foldl (fun _ _ _ => ?_) _ ?_
    | with_reducible refine Steady.choice ?_ ?_
    | split
    | with_reducible apply Steady.upd

theorem State.shavingLine_steady {a : State} {s : State} (sl : Nat) (sh : Shaving) (a3 : Access) (hk : Steady a s) : Steady a (State.shavingLine s sl sh a3) := by
  unfold State.shavingLine
  repeat' first
    | with_reducible assumption
    | intro _
    | (extract_lets +onlyGivenNames v; refine Steady.cut (v := v) ?_ (fun _ => ?_); rotate_left; clear_value v; revert v; intros; rotate_right; unfold v; clear v)
    | (extract_lets +onlyGivenNames v; clear_value v; revert v; intros)
    | with_reducible apply State.nextLine_steady
    | with_reducible apply State.copyFrom_steady
    | with_reducible apply State.putPattern_steady
    | with_reducible apply State.logFails_steady
    | with_reducible apply State.abandonShaving_steady
    | with_reducible apply State.hardFault_steady
    | with_reducible apply State.restoreLine_steady
    | with_reducible refine Steady.foldState (fun _ _ _ => ?_) ?_
    | with_reducible refine Steady.foldl (fun _ _ _ => ?_) _ ?_
    | with_reducible refine Steady.choice ?_ ?_
    | split
    | with_reducible apply Steady.upd

theorem State.engineAccess_steady {a : State} {s : State} (a1 : Access) (hk : Steady a s) : Steady a (State.engineAccess s a1) := by
  unfold State.engineAccess
  repeat' first
    | with_reducible assumption
    | intro _
    | (extract_lets +onlyGivenNames v; refine Steady.cut (v := v) ?_ (fun _ => ?_); rotate_left; clear_value v; revert v; intros; rotate_right; unfold v; clear v)
    | (extract_lets +onlyGivenNames v; clear_value v; revert v; intros)
    | with_reducible apply State.copyLine_steady
    | with_reducible apply State.shavingLine_steady
    | with_reducible refine Steady.foldState (fun _ _ _ => ?_) ?_
    | with_reducible refine Steady.foldl (fun _ _ _ => ?_) _ ?_
    | with_reducible refine Steady.choice ?_ ?_
    | split
    | with_reducible apply Steady.upd

theorem State.granted_steady {a : State} {s : State} (a1 : Access) (folded : List Access) (hk : Steady a s) : Steady a (State.granted s a1 folded) := by
  unfold State.granted
  repeat' first
    | with_reducible assumption
    | intro _
    | (extract_lets +onlyGivenNames v; refine Steady.cut (v := v) ?_ (fun _ => ?_); rotate_left; clear_value v; revert v; intros; rotate_right; unfold v; clear v)
    | (extract_lets +onlyGivenNames v; clear_value v; revert v; intros)
    | with_reducible apply State.perform_steady
    | with_reducible apply State.engineAccess_steady
    | with_reducible refine Steady.foldState (fun _ _ _ => ?_) ?_
    | with_reducible refine Steady.foldl (fun _ _ _ => ?_) _ ?_
    | with_reducible refine Steady.choice ?_ ?_
    | split
    | with_reducible apply Steady.upd

theorem State.bankStep_steady {a : State} (g o n : Nat) (trips : List Nat) (st : State × List Access) (b : Nat) (hk : Steady a st.1) :
    Steady a (State.bankStep g o n trips st b).1 := by
  unfold State.bankStep
  extract_lets +onlyGivenNames s q
  have hs : Steady a s := hk
  clear_value q
  split
  · dsimp only
    exact State.modGroup_steady _ _ hs
  · extract_lets +onlyGivenNames cand
    clear_value cand
    split
    · exact hk
    · rename_i w two e
      extract_lets +onlyGivenNames folded s1 s2 s3 s4
      have h1 : Steady a s1 := Steady.foldState (fun _ _ h => State.countWait_steady _ _ h) hs
      clear_value s1
      have h2 : Steady a s2 := Steady.foldState (fun _ _ h => by
        split
        · exact State.bump_steady _ _ _ _ h
        · exact h) h1
      clear_value s2
      have h3 : Steady a s3 := State.modGroup_steady _ _ h2
      clear_value s3
      have h4 : Steady a s4 := by
        dsimp only [s4]
        split
        · exact State.modGroup_steady _ _ h3
        · exact h3
      clear_value s4
      dsimp only
      split
      · exact State.tripped_steady _ _ _ h4
      · exact State.granted_steady _ _ h4

theorem State.unissue_steady {a : State} {s : State} (a1 : Access) (hk : Steady a s) : Steady a (State.unissue s a1) := by
  unfold State.unissue
  repeat' first
    | with_reducible assumption
    | intro _
    | (extract_lets +onlyGivenNames v; refine Steady.cut (v := v) ?_ (fun _ => ?_); rotate_left; clear_value v; revert v; intros; rotate_right; unfold v; clear v)
    | (extract_lets +onlyGivenNames v; clear_value v; revert v; intros)
    | with_reducible apply State.setLine_steady
    | with_reducible refine Steady.foldState (fun _ _ _ => ?_) ?_
    | with_reducible refine Steady.foldl (fun _ _ _ => ?_) _ ?_
    | with_reducible refine Steady.choice ?_ ?_
    | split
    | with_reducible apply Steady.upd

theorem State.withdrawAt_steady {a : State} (fw : Access → Bool) (fp : Access → Bool) {s : State} (g : Nat) (hk : Steady a s) : Steady a (State.withdrawAt fw fp s g) := by
  unfold State.withdrawAt
  repeat' first
    | with_reducible assumption
    | intro _
    | (extract_lets +onlyGivenNames v; refine Steady.cut (v := v) ?_ (fun _ => ?_); rotate_left; clear_value v; revert v; intros; rotate_right; unfold v; clear v)
    | (extract_lets +onlyGivenNames v; clear_value v; revert v; intros)
    | with_reducible apply State.unissue_steady
    | with_reducible apply State.modGroup_steady
    | with_reducible refine Steady.foldState (fun _ _ _ => ?_) ?_
    | with_reducible refine Steady.foldl (fun _ _ _ => ?_) _ ?_
    | with_reducible refine Steady.choice ?_ ?_
    | split
    | with_reducible apply Steady.upd

theorem State.withdraw_steady {a : State} {s : State} (fw : Access → Bool) (fp : Access → Bool) (hk : Steady a s) : Steady a (State.withdraw s fw fp) := by
  unfold State.withdraw
  repeat' first
    | with_reducible assumption
    | intro _
    | (extract_lets +onlyGivenNames v; refine Steady.cut (v := v) ?_ (fun _ => ?_); rotate_left; clear_value v; revert v; intros; rotate_right; unfold v; clear v)
    | (extract_lets +onlyGivenNames v; clear_value v; revert v; intros)
    | with_reducible apply State.withdrawAt_steady
    | with_reducible refine Steady.foldState (fun _ _ _ => ?_) ?_
    | with_reducible refine Steady.foldl (fun _ _ _ => ?_) _ ?_
    | with_reducible refine Steady.choice ?_ ?_
    | split
    | with_reducible apply Steady.upd

theorem State.cutWrite_steady {a : State} {s : State} (p : Nat) (r : Req) (code : Nat) (hk : Steady a s) : Steady a (State.cutWrite s p r code) := by
  unfold State.cutWrite
  repeat' first
    | with_reducible assumption
    | intro _
    | (extract_lets +onlyGivenNames v; refine Steady.cut (v := v) ?_ (fun _ => ?_); rotate_left; clear_value v; revert v; intros; rotate_right; unfold v; clear v)
    | (extract_lets +onlyGivenNames v; clear_value v; revert v; intros)
    | with_reducible apply State.modReq_steady
    | with_reducible apply State.withdraw_steady
    | with_reducible refine Steady.foldState (fun _ _ _ => ?_) ?_
    | with_reducible refine Steady.foldl (fun _ _ _ => ?_) _ ?_
    | with_reducible refine Steady.choice ?_ ?_
    | split
    | with_reducible apply Steady.upd

theorem State.endHeld_steady {a : State} {s : State} (p : Nat) (uid : Nat) (hk : Steady a s) : Steady a (State.endHeld s p uid) := by
  unfold State.endHeld
  repeat' first
    | with_reducible assumption
    | intro _
    | (extract_lets +onlyGivenNames v; refine Steady.cut (v := v) ?_ (fun _ => ?_); rotate_left; clear_value v; revert v; intros; rotate_right; unfold v; clear v)
    | (extract_lets +onlyGivenNames v; clear_value v; revert v; intros)
    | with_reducible apply State.discardBeats_steady
    | with_reducible apply State.retReq_steady
    | with_reducible apply State.refuseReq_steady
    | with_reducible apply State.modPort_steady
    | with_reducible refine Steady.foldState (fun _ _ _ => ?_) ?_
    | with_reducible refine Steady.foldl (fun _ _ _ => ?_) _ ?_
    | with_reducible refine Steady.choice ?_ ?_
    | split
    | with_reducible apply Steady.upd

theorem State.hog_steady {a : State} {s : State} (p : Nat) (hk : Steady a s) : Steady a (State.hog s p) := by
  unfold State.hog
  repeat' first
    | with_reducible assumption
    | intro _
    | (extract_lets +onlyGivenNames v; refine Steady.cut (v := v) ?_ (fun _ => ?_); rotate_left; clear_value v; revert v; intros; rotate_right; unfold v; clear v)
    | (extract_lets +onlyGivenNames v; clear_value v; revert v; intros)
    | with_reducible apply State.setBit_steady
    | with_reducible apply State.modPort_steady
    | with_reducible apply State.cutWrite_steady
    | with_reducible apply State.admitHeld_steady
    | with_reducible apply State.endHeld_steady
    | with_reducible refine Steady.foldState (fun _ _ _ => ?_) ?_
    | with_reducible refine Steady.foldl (fun _ _ _ => ?_) _ ?_
    | with_reducible refine Steady.choice ?_ ?_
    | split
    | with_reducible apply Steady.upd

theorem State.hogDue_steady {a : State} {s : State} (p : Nat) (hk : Steady a s) : Steady a (State.hogDue s p) := by
  unfold State.hogDue
  repeat' first
    | with_reducible assumption
    | intro _
    | (extract_lets +onlyGivenNames v; refine Steady.cut (v := v) ?_ (fun _ => ?_); rotate_left; clear_value v; revert v; intros; rotate_right; unfold v; clear v)
    | (extract_lets +onlyGivenNames v; clear_value v; revert v; intros)
    | with_reducible apply State.hog_steady
    | with_reducible refine Steady.foldState (fun _ _ _ => ?_) ?_
    | with_reducible refine Steady.foldl (fun _ _ _ => ?_) _ ?_
    | with_reducible refine Steady.choice ?_ ?_
    | split
    | with_reducible apply Steady.upd

theorem State.freeWait_steady {a : State} {s : State} (u : Nat) (hk : Steady a s) : Steady a (State.freeWait s u) := by
  unfold State.freeWait
  repeat' first
    | with_reducible assumption
    | intro _
    | (extract_lets +onlyGivenNames v; refine Steady.cut (v := v) ?_ (fun _ => ?_); rotate_left; clear_value v; revert v; intros; rotate_right; unfold v; clear v)
    | (extract_lets +onlyGivenNames v; clear_value v; revert v; intros)
    | with_reducible refine Steady.foldState (fun _ _ _ => ?_) ?_
    | with_reducible refine Steady.foldl (fun _ _ _ => ?_) _ ?_
    | with_reducible refine Steady.choice ?_ ?_
    | split
    | with_reducible apply Steady.upd

theorem State.driveEvt_steady {a : State} (p : Nat) {s : State} (e : Evt) (hk : Steady a s) : Steady a (State.driveEvt p s e) := by
  unfold State.driveEvt
  repeat' first
    | with_reducible assumption
    | intro _
    | (extract_lets +onlyGivenNames v; refine Steady.cut (v := v) ?_ (fun _ => ?_); rotate_left; clear_value v; revert v; intros; rotate_right; unfold v; clear v)
    | (extract_lets +onlyGivenNames v; clear_value v; revert v; intros)
    | with_reducible apply State.drive_steady
    | with_reducible apply State.freeWait_steady
    | with_reducible refine Steady.foldState (fun _ _ _ => ?_) ?_
    | with_reducible refine Steady.foldl (fun _ _ _ => ?_) _ ?_
    | with_reducible refine Steady.choice ?_ ?_
    | split
    | with_reducible apply Steady.upd

theorem State.sendEvents_steady {a : State} {s : State} (p : Nat) (hk : Steady a s) : Steady a (State.sendEvents s p) := by
  unfold State.sendEvents
  repeat' first
    | with_reducible assumption
    | intro _
    | (extract_lets +onlyGivenNames v; refine Steady.cut (v := v) ?_ (fun _ => ?_); rotate_left; clear_value v; revert v; intros; rotate_right; unfold v; clear v)
    | (extract_lets +onlyGivenNames v; clear_value v; revert v; intros)
    | with_reducible apply State.driveEvt_steady
    | with_reducible apply State.modPort_steady
    | with_reducible refine Steady.foldState (fun _ _ _ => ?_) ?_
    | with_reducible refine Steady.foldl (fun _ _ _ => ?_) _ ?_
    | with_reducible refine Steady.choice ?_ ?_
    | split
    | with_reducible apply Steady.upd

theorem State.event_steady {a : State} {s : State} (p : Nat) (code : Nat) (ctx : Nat) (tag : Nat) (info : Word) (hk : Steady a s) : Steady a (State.event s p code ctx tag info) := by
  unfold State.event
  repeat' first
    | with_reducible assumption
    | intro _
    | (extract_lets +onlyGivenNames v; refine Steady.cut (v := v) ?_ (fun _ => ?_); rotate_left; clear_value v; revert v; intros; rotate_right; unfold v; clear v)
    | (extract_lets +onlyGivenNames v; clear_value v; revert v; intros)
    | with_reducible apply State.modPort_steady
    | with_reducible refine Steady.foldState (fun _ _ _ => ?_) ?_
    | with_reducible refine Steady.foldl (fun _ _ _ => ?_) _ ?_
    | with_reducible refine Steady.choice ?_ ?_
    | split
    | with_reducible apply Steady.upd

theorem State.dropSignalOf_steady {a : State} {s : State} (r : Req) (hk : Steady a s) : Steady a (State.dropSignalOf s r) := by
  unfold State.dropSignalOf
  repeat' first
    | with_reducible assumption
    | intro _
    | (extract_lets +onlyGivenNames v; refine Steady.cut (v := v) ?_ (fun _ => ?_); rotate_left; clear_value v; revert v; intros; rotate_right; unfold v; clear v)
    | (extract_lets +onlyGivenNames v; clear_value v; revert v; intros)
    | with_reducible refine Steady.foldState (fun _ _ _ => ?_) ?_
    | with_reducible refine Steady.foldl (fun _ _ _ => ?_) _ ?_
    | with_reducible refine Steady.choice ?_ ?_
    | split
    | with_reducible apply Steady.upd

theorem State.fenceReq_steady {a : State} (p : Nat) {s : State} (r : Req) (hk : Steady a s) : Steady a (State.fenceReq p s r) := by
  unfold State.fenceReq
  repeat' first
    | with_reducible assumption
    | intro _
    | (extract_lets +onlyGivenNames v; refine Steady.cut (v := v) ?_ (fun _ => ?_); rotate_left; clear_value v; revert v; intros; rotate_right; unfold v; clear v)
    | (extract_lets +onlyGivenNames v; clear_value v; revert v; intros)
    | with_reducible apply State.dropSignalOf_steady
    | with_reducible apply State.cutWrite_steady
    | with_reducible apply State.modReq_steady
    | with_reducible refine Steady.foldState (fun _ _ _ => ?_) ?_
    | with_reducible refine Steady.foldl (fun _ _ _ => ?_) _ ?_
    | with_reducible refine Steady.choice ?_ ?_
    | split
    | with_reducible apply Steady.upd

theorem State.dropRgn_steady {a : State} {s : State} (n : Nat) (hk : Steady a s) : Steady a (State.dropRgn s n) := by
  unfold State.dropRgn
  repeat' first
    | with_reducible assumption
    | intro _
    | (extract_lets +onlyGivenNames v; refine Steady.cut (v := v) ?_ (fun _ => ?_); rotate_left; clear_value v; revert v; intros; rotate_right; unfold v; clear v)
    | (extract_lets +onlyGivenNames v; clear_value v; revert v; intros)
    | with_reducible apply State.setFld_steady
    | with_reducible refine Steady.foldState (fun _ _ _ => ?_) ?_
    | with_reducible refine Steady.foldl (fun _ _ _ => ?_) _ ?_
    | with_reducible refine Steady.choice ?_ ?_
    | split
    | with_reducible apply Steady.upd

theorem State.closeStreams_steady {a : State} {s : State} (p : Nat) (hk : Steady a s) : Steady a (State.closeStreams s p) := by
  unfold State.closeStreams
  repeat' first
    | with_reducible assumption
    | intro _
    | (extract_lets +onlyGivenNames v; refine Steady.cut (v := v) ?_ (fun _ => ?_); rotate_left; clear_value v; revert v; intros; rotate_right; unfold v; clear v)
    | (extract_lets +onlyGivenNames v; clear_value v; revert v; intros)
    | with_reducible apply State.modPort_steady
    | with_reducible apply State.dropRgn_steady
    | with_reducible refine Steady.foldState (fun _ _ _ => ?_) ?_
    | with_reducible refine Steady.foldl (fun _ _ _ => ?_) _ ?_
    | with_reducible refine Steady.choice ?_ ?_
    | split
    | with_reducible apply Steady.upd

theorem State.escalate_steady {a : State} (p : Nat) {s : State} (g : Nat) (hk : Steady a s) : Steady a (State.escalate p s g) := by
  unfold State.escalate
  repeat' first
    | with_reducible assumption
    | intro _
    | (extract_lets +onlyGivenNames v; refine Steady.cut (v := v) ?_ (fun _ => ?_); rotate_left; clear_value v; revert v; intros; rotate_right; unfold v; clear v)
    | (extract_lets +onlyGivenNames v; clear_value v; revert v; intros)
    | with_reducible apply State.modGroup_steady
    | with_reducible refine Steady.foldState (fun _ _ _ => ?_) ?_
    | with_reducible refine Steady.foldl (fun _ _ _ => ?_) _ ?_
    | with_reducible refine Steady.choice ?_ ?_
    | split
    | with_reducible apply Steady.upd

theorem State.refuseRpHeld_steady {a : State} {s : State} (hk : Steady a s) : Steady a (State.refuseRpHeld s) := by
  unfold State.refuseRpHeld
  repeat' first
    | with_reducible assumption
    | intro _
    | (extract_lets +onlyGivenNames v; refine Steady.cut (v := v) ?_ (fun _ => ?_); rotate_left; clear_value v; revert v; intros; rotate_right; unfold v; clear v)
    | (extract_lets +onlyGivenNames v; clear_value v; revert v; intros)
    | with_reducible apply State.refusePkt_steady
    | with_reducible refine Steady.foldState (fun _ _ _ => ?_) ?_
    | with_reducible refine Steady.foldl (fun _ _ _ => ?_) _ ?_
    | with_reducible refine Steady.choice ?_ ?_
    | split
    | with_reducible apply Steady.upd

theorem State.dropRpHeld_steady {a : State} {s : State} (hk : Steady a s) : Steady a (State.dropRpHeld s) := by
  unfold State.dropRpHeld
  repeat' first
    | with_reducible assumption
    | intro _
    | (extract_lets +onlyGivenNames v; refine Steady.cut (v := v) ?_ (fun _ => ?_); rotate_left; clear_value v; revert v; intros; rotate_right; unfold v; clear v)
    | (extract_lets +onlyGivenNames v; clear_value v; revert v; intros)
    | with_reducible apply State.freeBatch_steady
    | with_reducible apply State.rnack_steady
    | with_reducible refine Steady.foldState (fun _ _ _ => ?_) ?_
    | with_reducible refine Steady.foldl (fun _ _ _ => ?_) _ ?_
    | with_reducible refine Steady.choice ?_ ?_
    | split
    | with_reducible apply Steady.upd

theorem State.fenceRp_steady {a : State} {s : State} (hk : Steady a s) : Steady a (State.fenceRp s) := by
  unfold State.fenceRp
  repeat' first
    | with_reducible assumption
    | intro _
    | (extract_lets +onlyGivenNames v; refine Steady.cut (v := v) ?_ (fun _ => ?_); rotate_left; clear_value v; revert v; intros; rotate_right; unfold v; clear v)
    | (extract_lets +onlyGivenNames v; clear_value v; revert v; intros)
    | with_reducible apply State.repayLink_steady
    | with_reducible apply State.refuseRpHeld_steady
    | with_reducible apply State.dropRpHeld_steady
    | with_reducible refine Steady.foldState (fun _ _ _ => ?_) ?_
    | with_reducible refine Steady.foldl (fun _ _ _ => ?_) _ ?_
    | with_reducible refine Steady.choice ?_ ?_
    | split
    | with_reducible apply Steady.upd

theorem State.noteRepair_steady {a : State} {s : State} (d : Dest) (hk : Steady a s) : Steady a (State.noteRepair s d) := by
  unfold State.noteRepair
  repeat' first
    | with_reducible assumption
    | intro _
    | (extract_lets +onlyGivenNames v; refine Steady.cut (v := v) ?_ (fun _ => ?_); rotate_left; clear_value v; revert v; intros; rotate_right; unfold v; clear v)
    | (extract_lets +onlyGivenNames v; clear_value v; revert v; intros)
    | with_reducible apply State.modRow_steady
    | with_reducible apply State.bump_steady
    | with_reducible refine Steady.foldState (fun _ _ _ => ?_) ?_
    | with_reducible refine Steady.foldl (fun _ _ _ => ?_) _ ?_
    | with_reducible refine Steady.choice ?_ ?_
    | split
    | with_reducible apply Steady.upd

theorem State.sendHeld_steady {a : State} {s : State} (kind : TAwait → Bool) (w : TAwait) (hk : Steady a s) : Steady a (State.sendHeld s kind w) := by
  unfold State.sendHeld
  repeat' first
    | with_reducible assumption
    | intro _
    | (extract_lets +onlyGivenNames v; refine Steady.cut (v := v) ?_ (fun _ => ?_); rotate_left; clear_value v; revert v; intros; rotate_right; unfold v; clear v)
    | (extract_lets +onlyGivenNames v; clear_value v; revert v; intros)
    | with_reducible apply State.send_steady
    | with_reducible refine Steady.foldState (fun _ _ _ => ?_) ?_
    | with_reducible refine Steady.foldl (fun _ _ _ => ?_) _ ?_
    | with_reducible refine Steady.choice ?_ ?_
    | split
    | with_reducible apply Steady.upd

theorem State.sendNextFetch_steady {a : State} {s : State} (hk : Steady a s) : Steady a (State.sendNextFetch s) := by
  unfold State.sendNextFetch
  repeat' first
    | with_reducible assumption
    | intro _
    | (extract_lets +onlyGivenNames v; refine Steady.cut (v := v) ?_ (fun _ => ?_); rotate_left; clear_value v; revert v; intros; rotate_right; unfold v; clear v)
    | (extract_lets +onlyGivenNames v; clear_value v; revert v; intros)
    | with_reducible apply State.sendHeld_steady
    | with_reducible refine Steady.foldState (fun _ _ _ => ?_) ?_
    | with_reducible refine Steady.foldl (fun _ _ _ => ?_) _ ?_
    | with_reducible refine Steady.choice ?_ ?_
    | split
    | with_reducible apply Steady.upd

theorem State.dropAwait_steady {a : State} {s : State} (w : TAwait) (hk : Steady a s) : Steady a (State.dropAwait s w) := by
  unfold State.dropAwait
  repeat' first
    | with_reducible assumption
    | intro _
    | (extract_lets +onlyGivenNames v; refine Steady.cut (v := v) ?_ (fun _ => ?_); rotate_left; clear_value v; revert v; intros; rotate_right; unfold v; clear v)
    | (extract_lets +onlyGivenNames v; clear_value v; revert v; intros)
    | with_reducible refine Steady.foldState (fun _ _ _ => ?_) ?_
    | with_reducible refine Steady.foldl (fun _ _ _ => ?_) _ ?_
    | with_reducible refine Steady.choice ?_ ?_
    | split
    | with_reducible apply Steady.upd

theorem State.redoMerge_steady {a : State} {s : State} (a1 : Access) (copy : List Byte) (hk : Steady a s) : Steady a (State.redoMerge s a1 copy) := by
  unfold State.redoMerge
  repeat' first
    | with_reducible assumption
    | intro _
    | (extract_lets +onlyGivenNames v; refine Steady.cut (v := v) ?_ (fun _ => ?_); rotate_left; clear_value v; revert v; intros; rotate_right; unfold v; clear v)
    | (extract_lets +onlyGivenNames v; clear_value v; revert v; intros)
    | with_reducible apply State.notStored_steady
    | with_reducible apply State.sendMirror_steady
    | with_reducible apply State.awaitMirror_steady
    | with_reducible apply State.committed_steady
    | with_reducible apply State.commitLine_steady
    | with_reducible refine Steady.foldState (fun _ _ _ => ?_) ?_
    | with_reducible refine Steady.foldl (fun _ _ _ => ?_) _ ?_
    | with_reducible refine Steady.choice ?_ ?_
    | split
    | with_reducible apply Steady.upd

theorem State.finishRedo_steady {a : State} {s : State} (w : TAwait) (a2 : Access) (copy : List Byte) (hk : Steady a s) : Steady a (State.finishRedo s w a2 copy) := by
  unfold State.finishRedo
  repeat' first
    | with_reducible assumption
    | intro _
    | (extract_lets +onlyGivenNames v; refine Steady.cut (v := v) ?_ (fun _ => ?_); rotate_left; clear_value v; revert v; intros; rotate_right; unfold v; clear v)
    | (extract_lets +onlyGivenNames v; clear_value v; revert v; intros)
    | with_reducible apply State.noteRepair_steady
    | with_reducible apply State.sendNextFetch_steady
    | with_reducible apply State.dropAwait_steady
    | with_reducible apply State.perform_steady
    | with_reducible apply State.redoMerge_steady
    | with_reducible refine Steady.foldState (fun _ _ _ => ?_) ?_
    | with_reducible refine Steady.foldl (fun _ _ _ => ?_) _ ?_
    | with_reducible refine Steady.choice ?_ ?_
    | split
    | with_reducible apply Steady.upd

theorem State.loseAwait_steady {a : State} {s : State} (w : TAwait) (hk : Steady a s) : Steady a (State.loseAwait s w) := by
  unfold State.loseAwait
  repeat' first
    | with_reducible assumption
    | intro _
    | (extract_lets +onlyGivenNames v; refine Steady.cut (v := v) ?_ (fun _ => ?_); rotate_left; clear_value v; revert v; intros; rotate_right; unfold v; clear v)
    | (extract_lets +onlyGivenNames v; clear_value v; revert v; intros)
    | with_reducible apply State.repairFailed_steady
    | with_reducible apply State.bump_steady
    | with_reducible apply State.setBit_steady
    | with_reducible apply State.deliver_steady
    | with_reducible apply State.markDirty_steady
    | with_reducible refine Steady.foldState (fun _ _ _ => ?_) ?_
    | with_reducible refine Steady.foldl (fun _ _ _ => ?_) _ ?_
    | with_reducible refine Steady.choice ?_ ?_
    | split
    | with_reducible apply Steady.upd

theorem State.goDown_steady {a : State} {s : State} (hk : Steady a s) : Steady a (State.goDown s) := by
  unfold State.goDown
  repeat' first
    | with_reducible assumption
    | intro _
    | (extract_lets +onlyGivenNames v; refine Steady.cut (v := v) ?_ (fun _ => ?_); rotate_left; clear_value v; revert v; intros; rotate_right; unfold v; clear v)
    | (extract_lets +onlyGivenNames v; clear_value v; revert v; intros)
    | with_reducible apply State.setBit_steady
    | with_reducible apply State.setFld_steady
    | with_reducible apply State.finishRedo_steady
    | with_reducible apply State.loseAwait_steady
    | with_reducible apply State.outcome_steady
    | with_reducible refine Steady.foldState (fun _ _ _ => ?_) ?_
    | with_reducible refine Steady.foldl (fun _ _ _ => ?_) _ ?_
    | with_reducible refine Steady.choice ?_ ?_
    | split
    | with_reducible apply Steady.upd

theorem State.issueWriteLine_steady {a : State} (p : Nat) (uid : Nat) (i : Nat) {s : State} (j : Nat) (hk : Steady a s) : Steady a (State.issueWriteLine p uid i s j) := by
  unfold State.issueWriteLine
  repeat' first
    | with_reducible assumption
    | intro _
    | (extract_lets +onlyGivenNames v; refine Steady.cut (v := v) ?_ (fun _ => ?_); rotate_left; clear_value v; revert v; intros; rotate_right; unfold v; clear v)
    | (extract_lets +onlyGivenNames v; clear_value v; revert v; intros)
    | with_reducible apply State.setLine_steady
    | with_reducible apply State.sendLine_steady
    | with_reducible refine Steady.foldState (fun _ _ _ => ?_) ?_
    | with_reducible refine Steady.foldl (fun _ _ _ => ?_) _ ?_
    | with_reducible refine Steady.choice ?_ ?_
    | split
    | with_reducible apply Steady.upd

theorem State.issueBegun_steady {a : State} {s : State} (p : Nat) (r : Req) (hk : Steady a s) : Steady a (State.issueBegun s p r) := by
  unfold State.issueBegun
  repeat' first
    | with_reducible assumption
    | intro _
    | (extract_lets +onlyGivenNames v; refine Steady.cut (v := v) ?_ (fun _ => ?_); rotate_left; clear_value v; revert v; intros; rotate_right; unfold v; clear v)
    | (extract_lets +onlyGivenNames v; clear_value v; revert v; intros)
    | with_reducible apply State.issueWriteLine_steady
    | with_reducible refine Steady.foldState (fun _ _ _ => ?_) ?_
    | with_reducible refine Steady.foldl (fun _ _ _ => ?_) _ ?_
    | with_reducible refine Steady.choice ?_ ?_
    | split
    | with_reducible apply Steady.upd

theorem State.putLoad_steady {a : State} {s : State} (a1 : Nat) (b : Byte) (hk : Steady a s) : Steady a (State.putLoad s a1 b) := by
  unfold State.putLoad
  repeat' first
    | with_reducible assumption
    | intro _
    | (extract_lets +onlyGivenNames v; refine Steady.cut (v := v) ?_ (fun _ => ?_); rotate_left; clear_value v; revert v; intros; rotate_right; unfold v; clear v)
    | (extract_lets +onlyGivenNames v; clear_value v; revert v; intros)
    | with_reducible refine Steady.foldState (fun _ _ _ => ?_) ?_
    | with_reducible refine Steady.foldl (fun _ _ _ => ?_) _ ?_
    | with_reducible refine Steady.choice ?_ ?_
    | split
    | with_reducible apply Steady.upd

theorem State.putLoadRun_steady {a : State} {s : State} (a1 : Nat) (x2 : List Byte) (hk : Steady a s) : Steady a (State.putLoadRun s a1 x2) := by
  induction x2 generalizing s a1 with
  | nil => exact hk
  | cons b bs ih =>
    unfold State.putLoadRun
    repeat' first
      | with_reducible assumption
      | intro _
      | (extract_lets +onlyGivenNames v; refine Steady.cut (v := v) ?_ (fun _ => ?_); rotate_left; clear_value v; revert v; intros; rotate_right; unfold v; clear v)
      | (extract_lets +onlyGivenNames v; clear_value v; revert v; intros)
      | with_reducible apply State.putLoad_steady
      | with_reducible apply ih
      | with_reducible refine Steady.foldState (fun _ _ _ => ?_) ?_
      | with_reducible refine Steady.foldl (fun _ _ _ => ?_) _ ?_
      | with_reducible refine Steady.choice ?_ ?_
      | split
      | with_reducible apply Steady.upd

theorem State.issueLoad_steady {a : State} {s : State} (p : Nat) (r : Req) (hk : Steady a s) : Steady a (State.issueLoad s p r) := by
  unfold State.issueLoad
  repeat' first
    | with_reducible assumption
    | intro _
    | (extract_lets +onlyGivenNames v; refine Steady.cut (v := v) ?_ (fun _ => ?_); rotate_left; clear_value v; revert v; intros; rotate_right; unfold v; clear v)
    | (extract_lets +onlyGivenNames v; clear_value v; revert v; intros)
    | with_reducible apply State.answer_steady
    | with_reducible apply State.putLoadRun_steady
    | with_reducible apply State.modReq_steady
    | with_reducible refine Steady.foldState (fun _ _ _ => ?_) ?_
    | with_reducible refine Steady.foldl (fun _ _ _ => ?_) _ ?_
    | with_reducible refine Steady.choice ?_ ?_
    | split
    | with_reducible apply Steady.upd

theorem State.issueChecker_steady {a : State} {s : State} (p : Nat) (r : Req) (hk : Steady a s) : Steady a (State.issueChecker s p r) := by
  unfold State.issueChecker
  repeat' first
    | with_reducible assumption
    | intro _
    | (extract_lets +onlyGivenNames v; refine Steady.cut (v := v) ?_ (fun _ => ?_); rotate_left; clear_value v; revert v; intros; rotate_right; unfold v; clear v)
    | (extract_lets +onlyGivenNames v; clear_value v; revert v; intros)
    | with_reducible apply State.setLine_steady
    | with_reducible apply State.sendLine_steady
    | with_reducible refine Steady.foldState (fun _ _ _ => ?_) ?_
    | with_reducible refine Steady.foldl (fun _ _ _ => ?_) _ ?_
    | with_reducible refine Steady.choice ?_ ?_
    | split
    | with_reducible apply Steady.upd

theorem State.issueReadLine_steady {a : State} (p : Nat) (uid : Nat) (i : Nat) (fresh : Bool) {s : State} (j : Nat) (hk : Steady a s) : Steady a (State.issueReadLine p uid i fresh s j) := by
  unfold State.issueReadLine
  repeat' first
    | with_reducible assumption
    | intro _
    | (extract_lets +onlyGivenNames v; refine Steady.cut (v := v) ?_ (fun _ => ?_); rotate_left; clear_value v; revert v; intros; rotate_right; unfold v; clear v)
    | (extract_lets +onlyGivenNames v; clear_value v; revert v; intros)
    | with_reducible apply State.bump_steady
    | with_reducible apply State.vpcTouch_steady
    | with_reducible apply State.setLine_steady
    | with_reducible apply State.sendLine_steady
    | with_reducible refine Steady.foldState (fun _ _ _ => ?_) ?_
    | with_reducible refine Steady.foldl (fun _ _ _ => ?_) _ ?_
    | with_reducible refine Steady.choice ?_ ?_
    | split
    | with_reducible apply Steady.upd

theorem State.issueReadRow_steady {a : State} (p uid : Nat) (st : State × Bool) (i : Nat) (hk : Steady a st.1) :
    Steady a (State.issueReadRow p uid st i).1 := by
  unfold State.issueReadRow
  split
  · exact hk
  · split
    · exact hk
    · extract_lets w
      split
      · exact hk
      · split
        · exact State.modReq_steady _ _ _ hk
        · exact Steady.foldl (fun s j h => State.issueReadLine_steady _ _ _ _ _ h) _ hk

theorem State.issueRead_steady {a s : State} (p : Nat) (r : Req) (hk : Steady a s) : Steady a (State.issueRead s p r) := by
  unfold State.issueRead
  exact Steady.foldl_fst (fun s x h => State.issueReadRow_steady _ _ _ _ h) _ (State.modReq_steady _ _ _ hk)

theorem State.sampleEpoch_steady {a : State} {s : State} (p : Nat) (r : Req) (hk : Steady a s) : Steady a (State.sampleEpoch s p r) := by
  unfold State.sampleEpoch
  repeat' first
    | with_reducible assumption
    | intro _
    | (extract_lets +onlyGivenNames v; refine Steady.cut (v := v) ?_ (fun _ => ?_); rotate_left; clear_value v; revert v; intros; rotate_right; unfold v; clear v)
    | (extract_lets +onlyGivenNames v; clear_value v; revert v; intros)
    | with_reducible apply State.modReq_steady
    | with_reducible refine Steady.foldState (fun _ _ _ => ?_) ?_
    | with_reducible refine Steady.foldl (fun _ _ _ => ?_) _ ?_
    | with_reducible refine Steady.choice ?_ ?_
    | split
    | with_reducible apply Steady.upd

theorem State.filterRow_steady {a : State} {s : State} (p : Nat) (uid : Nat) (i : Nat) (hk : Steady a s) : Steady a (State.filterRow s p uid i) := by
  unfold State.filterRow
  repeat' first
    | with_reducible assumption
    | intro _
    | (extract_lets +onlyGivenNames v; refine Steady.cut (v := v) ?_ (fun _ => ?_); rotate_left; clear_value v; revert v; intros; rotate_right; unfold v; clear v)
    | (extract_lets +onlyGivenNames v; clear_value v; revert v; intros)
    | with_reducible apply State.bump_steady
    | with_reducible apply State.modReq_steady
    | with_reducible refine Steady.foldState (fun _ _ _ => ?_) ?_
    | with_reducible refine Steady.foldl (fun _ _ _ => ?_) _ ?_
    | with_reducible refine Steady.choice ?_ ?_
    | split
    | with_reducible apply Steady.upd

theorem State.issueWriteRow_steady {a : State} (p : Nat) (uid : Nat) {s : State} (i : Nat) (hk : Steady a s) : Steady a (State.issueWriteRow p uid s i) := by
  unfold State.issueWriteRow
  repeat' first
    | with_reducible assumption
    | intro _
    | (extract_lets +onlyGivenNames v; refine Steady.cut (v := v) ?_ (fun _ => ?_); rotate_left; clear_value v; revert v; intros; rotate_right; unfold v; clear v)
    | (extract_lets +onlyGivenNames v; clear_value v; revert v; intros)
    | with_reducible apply State.filterRow_steady
    | with_reducible apply State.issueWriteLine_steady
    | with_reducible refine Steady.foldState (fun _ _ _ => ?_) ?_
    | with_reducible refine Steady.foldl (fun _ _ _ => ?_) _ ?_
    | with_reducible refine Steady.choice ?_ ?_
    | split
    | with_reducible apply Steady.upd

theorem State.issueWrite_steady {a : State} {s : State} (p : Nat) (r : Req) (hk : Steady a s) : Steady a (State.issueWrite s p r) := by
  unfold State.issueWrite
  repeat' first
    | with_reducible assumption
    | intro _
    | (extract_lets +onlyGivenNames v; refine Steady.cut (v := v) ?_ (fun _ => ?_); rotate_left; clear_value v; revert v; intros; rotate_right; unfold v; clear v)
    | (extract_lets +onlyGivenNames v; clear_value v; revert v; intros)
    | with_reducible apply State.sampleEpoch_steady
    | with_reducible apply State.issueWriteRow_steady
    | with_reducible apply State.modReq_steady
    | with_reducible refine Steady.foldState (fun _ _ _ => ?_) ?_
    | with_reducible refine Steady.foldl (fun _ _ _ => ?_) _ ?_
    | with_reducible refine Steady.choice ?_ ?_
    | split
    | with_reducible apply Steady.upd

theorem State.observe_steady {a : State} {s : State} (flag : Bool) (phys : Nat) (m : Option Modif) (aport : Nat) (as : Nat) (hk : Steady a s) : Steady a (State.observe s flag phys m aport as) := by
  unfold State.observe
  repeat' first
    | with_reducible assumption
    | intro _
    | (extract_lets +onlyGivenNames v; refine Steady.cut (v := v) ?_ (fun _ => ?_); rotate_left; clear_value v; revert v; intros; rotate_right; unfold v; clear v)
    | (extract_lets +onlyGivenNames v; clear_value v; revert v; intros)
    | with_reducible apply State.setReg_steady
    | with_reducible apply State.bump_steady
    | with_reducible refine Steady.foldState (fun _ _ _ => ?_) ?_
    | with_reducible refine Steady.foldl (fun _ _ _ => ?_) _ ?_
    | with_reducible refine Steady.choice ?_ ?_
    | split
    | with_reducible apply Steady.upd

theorem State.evalWait_steady {a : State} {s : State} (p : Nat) (r : Req) (hk : Steady a s) : Steady a (State.evalWait s p r) := by
  unfold State.evalWait
  repeat' first
    | with_reducible assumption
    | intro _
    | (extract_lets +onlyGivenNames v; refine Steady.cut (v := v) ?_ (fun _ => ?_); rotate_left; clear_value v; revert v; intros; rotate_right; unfold v; clear v)
    | (extract_lets +onlyGivenNames v; clear_value v; revert v; intros)
    | with_reducible apply State.observe_steady
    | with_reducible apply State.answer_steady
    | with_reducible apply State.setPhase_steady
    | with_reducible refine Steady.foldState (fun _ _ _ => ?_) ?_
    | with_reducible refine Steady.foldl (fun _ _ _ => ?_) _ ?_
    | with_reducible refine Steady.choice ?_ ?_
    | split
    | with_reducible apply Steady.upd

theorem State.evalRangeOpen_steady {a : State} {s : State} (p : Nat) (r : Req) (hk : Steady a s) : Steady a (State.evalRangeOpen s p r) := by
  unfold State.evalRangeOpen
  repeat' first
    | with_reducible assumption
    | intro _
    | (extract_lets +onlyGivenNames v; refine Steady.cut (v := v) ?_ (fun _ => ?_); rotate_left; clear_value v; revert v; intros; rotate_right; unfold v; clear v)
    | (extract_lets +onlyGivenNames v; clear_value v; revert v; intros)
    | with_reducible apply State.answer_steady
    | with_reducible apply State.bump_steady
    | with_reducible apply State.setReg_steady
    | with_reducible apply State.raise_steady
    | with_reducible apply State.modReq_steady
    | with_reducible refine Steady.foldState (fun _ _ _ => ?_) ?_
    | with_reducible refine Steady.foldl (fun _ _ _ => ?_) _ ?_
    | with_reducible refine Steady.choice ?_ ?_
    | split
    | with_reducible apply Steady.upd

theorem State.evalRangeClose_steady {a : State} {s : State} (p : Nat) (r : Req) (hk : Steady a s) : Steady a (State.evalRangeClose s p r) := by
  unfold State.evalRangeClose
  repeat' first
    | with_reducible assumption
    | intro _
    | (extract_lets +onlyGivenNames v; refine Steady.cut (v := v) ?_ (fun _ => ?_); rotate_left; clear_value v; revert v; intros; rotate_right; unfold v; clear v)
    | (extract_lets +onlyGivenNames v; clear_value v; revert v; intros)
    | with_reducible apply State.answer_steady
    | with_reducible apply State.setPhase_steady
    | with_reducible refine Steady.foldState (fun _ _ _ => ?_) ?_
    | with_reducible refine Steady.foldl (fun _ _ _ => ?_) _ ?_
    | with_reducible refine Steady.choice ?_ ?_
    | split
    | with_reducible apply Steady.upd

end Sys2Proof.Machine
end

