-- ==== Sys2Proof/Laws/SteadyB.lean ====
section
/-! SUPPORT. `Steady` for the operations of the block, second part: one lemma each, for the provers to cite. -/
namespace Sys2Proof.Machine

theorem State.evalSync_steady {a : State} {s : State} (p : Nat) (r : Req) (hk : Steady a s) : Steady a (State.evalSync s p r) := by
  unfold State.evalSync
  repeat' first
    | with_reducible assumption
    | intro _
    | (extract_lets +onlyGivenNames v; refine Steady.cut (v := v) ?_ (fun _ => ?_); rotate_left; clear_value v; revert v; intros; rotate_right; unfold v; clear v)
    | (extract_lets +onlyGivenNames v; clear_value v; revert v; intros)
    | with_reducible apply State.answer_steady
    | with_reducible apply State.setPhase_steady
    | with_reducible apply State.bump_steady
    | with_reducible apply State.putFlg_steady
    | with_reducible apply State.observe_steady
    | with_reducible apply State.evalWait_steady
    | with_reducible apply State.evalRangeOpen_steady
    | with_reducible apply State.evalRangeClose_steady
    | with_reducible apply State.modReq_steady
    | with_reducible apply State.dropRgn_steady
    | refine State.evalAdd_steady (by assumption) ?_
    | refine Steady.getD (fun _ _ => ?_) ?_
    | with_reducible refine Steady.foldState (fun _ _ _ => ?_) ?_
    | with_reducible refine Steady.foldl (fun _ _ _ => ?_) _ ?_
    | with_reducible refine Steady.choice ?_ ?_
    | split
    | with_reducible apply Steady.upd

theorem State.issue_steady {a : State} (p : Nat) {s : State} (uid : Nat) (hk : Steady a s) : Steady a (State.issue p s uid) := by
  unfold State.issue
  repeat' first
    | with_reducible assumption
    | intro _
    | (extract_lets +onlyGivenNames v; refine Steady.cut (v := v) ?_ (fun _ => ?_); rotate_left; clear_value v; revert v; intros; rotate_right; unfold v; clear v)
    | (extract_lets +onlyGivenNames v; clear_value v; revert v; intros)
    | with_reducible apply State.issueBegun_steady
    | with_reducible apply State.issueLoad_steady
    | with_reducible apply State.issueChecker_steady
    | with_reducible apply State.setPhase_steady
    | with_reducible apply State.issueRead_steady
    | with_reducible apply State.issueWrite_steady
    | with_reducible apply State.evalSync_steady
    | with_reducible refine Steady.foldState (fun _ _ _ => ?_) ?_
    | with_reducible refine Steady.foldl (fun _ _ _ => ?_) _ ?_
    | with_reducible refine Steady.choice ?_ ?_
    | split
    | with_reducible apply Steady.upd

theorem State.recordRow_steady {a : State} (p : Nat) (uid : Nat) {s : State} (i : Nat) (hk : Steady a s) : Steady a (State.recordRow p uid s i) := by
  unfold State.recordRow
  repeat' first
    | with_reducible assumption
    | intro _
    | (extract_lets +onlyGivenNames v; refine Steady.cut (v := v) ?_ (fun _ => ?_); rotate_left; clear_value v; revert v; intros; rotate_right; unfold v; clear v)
    | (extract_lets +onlyGivenNames v; clear_value v; revert v; intros)
    | with_reducible refine Steady.foldState (fun _ _ _ => ?_) ?_
    | with_reducible refine Steady.foldl (fun _ _ _ => ?_) _ ?_
    | with_reducible refine Steady.choice ?_ ?_
    | split
    | with_reducible apply Steady.upd

theorem State.payBeats_steady {a : State} (p : Nat) {s : State} (uid : Nat) (hk : Steady a s) : Steady a (State.payBeats p s uid) := by
  unfold State.payBeats
  repeat' first
    | with_reducible assumption
    | intro _
    | (extract_lets +onlyGivenNames v; refine Steady.cut (v := v) ?_ (fun _ => ?_); rotate_left; clear_value v; revert v; intros; rotate_right; unfold v; clear v)
    | (extract_lets +onlyGivenNames v; clear_value v; revert v; intros)
    | with_reducible apply State.retWd_steady
    | with_reducible apply State.modReq_steady
    | with_reducible refine Steady.foldState (fun _ _ _ => ?_) ?_
    | with_reducible refine Steady.foldl (fun _ _ _ => ?_) _ ?_
    | with_reducible refine Steady.choice ?_ ?_
    | split
    | with_reducible apply Steady.upd

theorem State.driveRow_steady {a : State} {s : State} (p : Nat) (tag : Nat) (code : Nat) (last : Bool) (data : List Byte) (hk : Steady a s) : Steady a (State.driveRow s p tag code last data) := by
  unfold State.driveRow
  repeat' first
    | with_reducible assumption
    | intro _
    | (extract_lets +onlyGivenNames v; refine Steady.cut (v := v) ?_ (fun _ => ?_); rotate_left; clear_value v; revert v; intros; rotate_right; unfold v; clear v)
    | (extract_lets +onlyGivenNames v; clear_value v; revert v; intros)
    | with_reducible apply State.modPort_steady
    | with_reducible apply State.drive_steady
    | with_reducible refine Steady.foldState (fun _ _ _ => ?_) ?_
    | with_reducible refine Steady.foldl (fun _ _ _ => ?_) _ ?_
    | with_reducible refine Steady.choice ?_ ?_
    | split
    | with_reducible apply Steady.upd

theorem State.driveRows_steady {a : State} {s : State} (p : Nat) (uid : Nat) (x3 : Nat) (hk : Steady a s) : Steady a (State.driveRows s p uid x3) := by
  induction x3 generalizing s p uid with
  | zero => exact hk
  | succ n ih =>
    unfold State.driveRows
    repeat' first
      | with_reducible assumption
      | intro _
      | (extract_lets +onlyGivenNames v; refine Steady.cut (v := v) ?_ (fun _ => ?_); rotate_left; clear_value v; revert v; intros; rotate_right; unfold v; clear v)
      | (extract_lets +onlyGivenNames v; clear_value v; revert v; intros)
      | with_reducible apply State.driveRow_steady
      | with_reducible apply State.modReq_steady
      | with_reducible apply ih
      | with_reducible refine Steady.foldState (fun _ _ _ => ?_) ?_
      | with_reducible refine Steady.foldl (fun _ _ _ => ?_) _ ?_
      | with_reducible refine Steady.choice ?_ ?_
      | split
      | with_reducible apply Steady.upd

theorem State.retire_steady {a : State} {s : State} (p : Nat) (r : Req) (hk : Steady a s) : Steady a (State.retire s p r) := by
  unfold State.retire
  repeat' first
    | with_reducible assumption
    | intro _
    | (extract_lets +onlyGivenNames v; refine Steady.cut (v := v) ?_ (fun _ => ?_); rotate_left; clear_value v; revert v; intros; rotate_right; unfold v; clear v)
    | (extract_lets +onlyGivenNames v; clear_value v; revert v; intros)
    | with_reducible apply State.modPort_steady
    | with_reducible apply State.dropRgn_steady
    | with_reducible refine Steady.foldState (fun _ _ _ => ?_) ?_
    | with_reducible refine Steady.foldl (fun _ _ _ => ?_) _ ?_
    | with_reducible refine Steady.choice ?_ ?_
    | split
    | with_reducible apply Steady.upd

theorem State.drainR_steady {a : State} {s : State} (p : Nat) (x2 : Nat) (hk : Steady a s) : Steady a (State.drainR s p x2) := by
  induction x2 generalizing s p with
  | zero => exact hk
  | succ n ih =>
    unfold State.drainR
    repeat' first
      | with_reducible assumption
      | intro _
      | (extract_lets +onlyGivenNames v; refine Steady.cut (v := v) ?_ (fun _ => ?_); rotate_left; clear_value v; revert v; intros; rotate_right; unfold v; clear v)
      | (extract_lets +onlyGivenNames v; clear_value v; revert v; intros)
      | with_reducible apply State.driveRows_steady
      | with_reducible apply State.driveRow_steady
      | with_reducible apply State.retire_steady
      | with_reducible apply ih
      | with_reducible refine Steady.foldState (fun _ _ _ => ?_) ?_
      | with_reducible refine Steady.foldl (fun _ _ _ => ?_) _ ?_
      | with_reducible refine Steady.choice ?_ ?_
      | split
      | with_reducible apply Steady.upd

theorem State.tellWait_steady {a : State} {s : State} (uid : Nat) (hk : Steady a s) : Steady a (State.tellWait s uid) := by
  unfold State.tellWait
  repeat' first
    | with_reducible assumption
    | intro _
    | (extract_lets +onlyGivenNames v; refine Steady.cut (v := v) ?_ (fun _ => ?_); rotate_left; clear_value v; revert v; intros; rotate_right; unfold v; clear v)
    | (extract_lets +onlyGivenNames v; clear_value v; revert v; intros)
    | with_reducible refine Steady.foldState (fun _ _ _ => ?_) ?_
    | with_reducible refine Steady.foldl (fun _ _ _ => ?_) _ ?_
    | with_reducible refine Steady.choice ?_ ?_
    | split
    | with_reducible apply Steady.upd

theorem State.drainA_steady {a : State} {s : State} (p : Nat) (x2 : Nat) (hk : Steady a s) : Steady a (State.drainA s p x2) := by
  induction x2 generalizing s p with
  | zero => exact hk
  | succ n ih =>
    unfold State.drainA
    repeat' first
      | with_reducible assumption
      | intro _
      | (extract_lets +onlyGivenNames v; refine Steady.cut (v := v) ?_ (fun _ => ?_); rotate_left; clear_value v; revert v; intros; rotate_right; unfold v; clear v)
      | (extract_lets +onlyGivenNames v; clear_value v; revert v; intros)
      | with_reducible apply State.tellWait_steady
      | with_reducible apply State.fxSeen_steady
      | with_reducible apply State.retire_steady
      | with_reducible apply State.drive_steady
      | with_reducible apply State.modPort_steady
      | with_reducible apply ih
      | with_reducible refine Steady.foldState (fun _ _ _ => ?_) ?_
      | with_reducible refine Steady.foldl (fun _ _ _ => ?_) _ ?_
      | with_reducible refine Steady.choice ?_ ?_
      | split
      | with_reducible apply Steady.upd

theorem State.drain_steady {a : State} {s : State} (p : Nat) (hk : Steady a s) : Steady a (State.drain s p) := by
  unfold State.drain
  repeat' first
    | with_reducible assumption
    | intro _
    | (extract_lets +onlyGivenNames v; refine Steady.cut (v := v) ?_ (fun _ => ?_); rotate_left; clear_value v; revert v; intros; rotate_right; unfold v; clear v)
    | (extract_lets +onlyGivenNames v; clear_value v; revert v; intros)
    | with_reducible apply State.drainR_steady
    | with_reducible apply State.drainA_steady
    | with_reducible refine Steady.foldState (fun _ _ _ => ?_) ?_
    | with_reducible refine Steady.foldl (fun _ _ _ => ?_) _ ?_
    | with_reducible refine Steady.choice ?_ ?_
    | split
    | with_reducible apply Steady.upd

theorem State.settle_steady {a s : State} (p : Nat) (hk : Steady a s) : Steady a (State.settle s p) := by
  unfold State.settle
  extract_lets pass
  have hp : ∀ t, Steady a t → Steady a (pass t) := by
    intro t h
    refine State.drain_steady _ (Steady.foldl (fun u r h => ?_) _ (Steady.foldl (fun u r h => ?_) _
      (Steady.foldl (fun u r h => State.issue_steady _ _ h) _ h)))
    · split
      · exact h
      · exact State.payBeats_steady _ _ h
    · split
      · exact Steady.foldl (fun _ _ h => State.recordRow_steady _ _ _ h) _ h
      · exact h
  exact hp _ (hp _ hk)

theorem State.fencePort_steady {a : State} {s : State} (p : Nat) (reason : Nat) (hk : Steady a s) : Steady a (State.fencePort s p reason) := by
  unfold State.fencePort
  repeat' first
    | with_reducible assumption
    | intro _
    | (extract_lets +onlyGivenNames v; refine Steady.cut (v := v) ?_ (fun _ => ?_); rotate_left; clear_value v; revert v; intros; rotate_right; unfold v; clear v)
    | (extract_lets +onlyGivenNames v; clear_value v; revert v; intros)
    | with_reducible apply State.setFld_steady
    | with_reducible apply State.modPort_steady
    | with_reducible apply State.sendEvents_steady
    | with_reducible apply State.event_steady
    | with_reducible apply State.keepFault_steady
    | with_reducible apply State.fenceReq_steady
    | with_reducible apply State.withdraw_steady
    | with_reducible apply State.closeStreams_steady
    | with_reducible apply State.escalate_steady
    | with_reducible apply State.admitHeld_steady
    | with_reducible apply State.fenceRp_steady
    | with_reducible apply State.goDown_steady
    | with_reducible apply State.settle_steady
    | with_reducible refine Steady.foldState (fun _ _ _ => ?_) ?_
    | with_reducible refine Steady.foldl (fun _ _ _ => ?_) _ ?_
    | with_reducible refine Steady.choice ?_ ?_
    | split
    | with_reducible apply Steady.upd

theorem State.protoErr_steady {a : State} {s : State} (p : Nat) (i : Nat) (hk : Steady a s) : Steady a (State.protoErr s p i) := by
  unfold State.protoErr
  repeat' first
    | with_reducible assumption
    | intro _
    | (extract_lets +onlyGivenNames v; refine Steady.cut (v := v) ?_ (fun _ => ?_); rotate_left; clear_value v; revert v; intros; rotate_right; unfold v; clear v)
    | (extract_lets +onlyGivenNames v; clear_value v; revert v; intros)
    | with_reducible apply State.setBit_steady
    | with_reducible apply State.fencePort_steady
    | with_reducible refine Steady.foldState (fun _ _ _ => ?_) ?_
    | with_reducible refine Steady.foldl (fun _ _ _ => ?_) _ ?_
    | with_reducible refine Steady.choice ?_ ?_
    | split
    | with_reducible apply Steady.upd

theorem State.takeBeat_steady {a : State} {s : State} (p : Nat) (data : List Byte) (wen : Nat) (hk : Steady a s) : Steady a (State.takeBeat s p data wen) := by
  unfold State.takeBeat
  repeat' first
    | with_reducible assumption
    | intro _
    | (extract_lets +onlyGivenNames v; refine Steady.cut (v := v) ?_ (fun _ => ?_); rotate_left; clear_value v; revert v; intros; rotate_right; unfold v; clear v)
    | (extract_lets +onlyGivenNames v; clear_value v; revert v; intros)
    | with_reducible apply State.modPort_steady
    | with_reducible apply State.protoErr_steady
    | with_reducible apply State.retWd_steady
    | with_reducible refine Steady.foldState (fun _ _ _ => ?_) ?_
    | with_reducible refine Steady.foldl (fun _ _ _ => ?_) _ ?_
    | with_reducible refine Steady.choice ?_ ?_
    | split
    | with_reducible apply Steady.upd

theorem State.beat_steady {a : State} {s : State} (p : Nat) (data : List Byte) (wen : Nat) (hk : Steady a s) : Steady a (State.beat s p data wen) := by
  unfold State.beat
  repeat' first
    | with_reducible assumption
    | intro _
    | (extract_lets +onlyGivenNames v; refine Steady.cut (v := v) ?_ (fun _ => ?_); rotate_left; clear_value v; revert v; intros; rotate_right; unfold v; clear v)
    | (extract_lets +onlyGivenNames v; clear_value v; revert v; intros)
    | with_reducible apply State.hogDue_steady
    | with_reducible apply State.protoErr_steady
    | with_reducible apply State.settle_steady
    | with_reducible apply State.retWd_steady
    | with_reducible apply State.modPort_steady
    | with_reducible apply State.takeBeat_steady
    | with_reducible refine Steady.foldState (fun _ _ _ => ?_) ?_
    | with_reducible refine Steady.foldl (fun _ _ _ => ?_) _ ?_
    | with_reducible refine Steady.choice ?_ ?_
    | split
    | with_reducible apply Steady.upd

theorem State.beatCore_steady {a : State} {s : State} (k : Nat) (hk : Steady a s) : Steady a (State.beatCore s k) := by
  unfold State.beatCore
  repeat' first
    | with_reducible assumption
    | intro _
    | (extract_lets +onlyGivenNames v; refine Steady.cut (v := v) ?_ (fun _ => ?_); rotate_left; clear_value v; revert v; intros; rotate_right; unfold v; clear v)
    | (extract_lets +onlyGivenNames v; clear_value v; revert v; intros)
    | with_reducible apply State.setFld_steady
    | with_reducible refine Steady.foldState (fun _ _ _ => ?_) ?_
    | with_reducible refine Steady.foldl (fun _ _ _ => ?_) _ ?_
    | with_reducible refine Steady.choice ?_ ?_
    | split
    | with_reducible apply Steady.upd

theorem State.beatCores_steady {a : State} {s : State} (stopped : Nat) (hk : Steady a s) : Steady a (State.beatCores s stopped) := by
  unfold State.beatCores
  repeat' first
    | with_reducible assumption
    | intro _
    | (extract_lets +onlyGivenNames v; refine Steady.cut (v := v) ?_ (fun _ => ?_); rotate_left; clear_value v; revert v; intros; rotate_right; unfold v; clear v)
    | (extract_lets +onlyGivenNames v; clear_value v; revert v; intros)
    | with_reducible apply State.beatCore_steady
    | with_reducible refine Steady.foldState (fun _ _ _ => ?_) ?_
    | with_reducible refine Steady.foldl (fun _ _ _ => ?_) _ ?_
    | with_reducible refine Steady.choice ?_ ?_
    | split
    | with_reducible apply Steady.upd

theorem State.beginEntry_steady {a : State} {s : State} (target : Nat) (cmd : Option Nat) (retain : Nat) (hk : Steady a s) : Steady a (State.beginEntry s target cmd retain) := by
  unfold State.beginEntry
  repeat' first
    | with_reducible assumption
    | intro _
    | (extract_lets +onlyGivenNames v; refine Steady.cut (v := v) ?_ (fun _ => ?_); rotate_left; clear_value v; revert v; intros; rotate_right; unfold v; clear v)
    | (extract_lets +onlyGivenNames v; clear_value v; revert v; intros)
    | with_reducible apply State.setEntry_steady
    | with_reducible apply State.setFld_steady
    | with_reducible refine Steady.foldState (fun _ _ _ => ?_) ?_
    | with_reducible refine Steady.foldl (fun _ _ _ => ?_) _ ?_
    | with_reducible refine Steady.choice ?_ ?_
    | split
    | with_reducible apply Steady.upd

theorem State.bindNow_steady {a : State} {s : State} (n : Nat) (peer : Nat) (ok : Bool) (hk : Steady a s) : Steady a (State.bindNow s n peer ok) := by
  unfold State.bindNow
  repeat' first
    | with_reducible assumption
    | intro _
    | (extract_lets +onlyGivenNames v; refine Steady.cut (v := v) ?_ (fun _ => ?_); rotate_left; clear_value v; revert v; intros; rotate_right; unfold v; clear v)
    | (extract_lets +onlyGivenNames v; clear_value v; revert v; intros)
    | with_reducible apply State.outcome_steady
    | with_reducible apply State.setFld_steady
    | with_reducible refine Steady.foldState (fun _ _ _ => ?_) ?_
    | with_reducible refine Steady.foldl (fun _ _ _ => ?_) _ ?_
    | with_reducible refine Steady.choice ?_ ?_
    | split
    | with_reducible apply Steady.upd

theorem State.blankLine_steady {a s : State} (lb ix : Nat) (hk : Steady a s) : Steady a (State.blankLine s lb ix) := by
  unfold State.blankLine
  split
  · exact hk
  · extract_lets blank s1
    have hb : ∀ t h, Steady a t → Steady a (blank t h) := by
      intro t h ht
      dsimp only [blank]
      split
      · exact ht
      · exact State.setMeta_steady _ _ _ ht
    have h1 : Steady a s1 := hb _ _ hk
    clear_value s1
    split
    · exact hb _ _ h1
    · exact h1

theorem State.blankRegion_steady {a : State} {s : State} (n : Nat) (hk : Steady a s) : Steady a (State.blankRegion s n) := by
  unfold State.blankRegion
  repeat' first
    | with_reducible assumption
    | intro _
    | (extract_lets +onlyGivenNames v; refine Steady.cut (v := v) ?_ (fun _ => ?_); rotate_left; clear_value v; revert v; intros; rotate_right; unfold v; clear v)
    | (extract_lets +onlyGivenNames v; clear_value v; revert v; intros)
    | with_reducible apply State.notice_steady
    | with_reducible apply State.blankLine_steady
    | with_reducible refine Steady.foldState (fun _ _ _ => ?_) ?_
    | with_reducible refine Steady.foldl (fun _ _ _ => ?_) _ ?_
    | with_reducible refine Steady.choice ?_ ?_
    | split
    | with_reducible apply Steady.upd

theorem State.settleAll_steady {a : State} {s : State} (hk : Steady a s) : Steady a (State.settleAll s) := by
  unfold State.settleAll
  repeat' first
    | with_reducible assumption
    | intro _
    | (extract_lets +onlyGivenNames v; refine Steady.cut (v := v) ?_ (fun _ => ?_); rotate_left; clear_value v; revert v; intros; rotate_right; unfold v; clear v)
    | (extract_lets +onlyGivenNames v; clear_value v; revert v; intros)
    | with_reducible apply State.settle_steady
    | with_reducible refine Steady.foldState (fun _ _ _ => ?_) ?_
    | with_reducible refine Steady.foldl (fun _ _ _ => ?_) _ ?_
    | with_reducible refine Steady.choice ?_ ?_
    | split
    | with_reducible apply Steady.upd

theorem State.offerEngine_steady {a : State} {s : State} (g : Nat) (o : Nat) (hk : Steady a s) : Steady a (State.offerEngine s g o) := by
  unfold State.offerEngine
  repeat' first
    | with_reducible assumption
    | intro _
    | (extract_lets +onlyGivenNames v; refine Steady.cut (v := v) ?_ (fun _ => ?_); rotate_left; clear_value v; revert v; intros; rotate_right; unfold v; clear v)
    | (extract_lets +onlyGivenNames v; clear_value v; revert v; intros)
    | with_reducible apply State.modGroup_steady
    | with_reducible refine Steady.foldState (fun _ _ _ => ?_) ?_
    | with_reducible refine Steady.foldl (fun _ _ _ => ?_) _ ?_
    | with_reducible refine Steady.choice ?_ ?_
    | split
    | with_reducible apply Steady.upd

theorem State.park_steady {a s : State} (g : Nat) (x : Access) (hk : Steady a s) : Steady a (State.park s g x) := by
  unfold State.park
  extract_lets q put
  have hp : ∀ b, Steady a (put b) := fun b => State.modGroup_steady _ _ hk
  clear_value put
  split
  · exact hp _
  · split
    · exact hp _
    · exact hk

theorem State.parkAll_steady {a : State} {s : State} (g : Nat) (hk : Steady a s) : Steady a (State.parkAll s g) := by
  unfold State.parkAll
  repeat' first
    | with_reducible assumption
    | intro _
    | (extract_lets +onlyGivenNames v; refine Steady.cut (v := v) ?_ (fun _ => ?_); rotate_left; clear_value v; revert v; intros; rotate_right; unfold v; clear v)
    | (extract_lets +onlyGivenNames v; clear_value v; revert v; intros)
    | with_reducible apply State.bump_steady
    | with_reducible apply State.park_steady
    | with_reducible apply State.raise_steady
    | with_reducible refine Steady.foldState (fun _ _ _ => ?_) ?_
    | with_reducible refine Steady.foldl (fun _ _ _ => ?_) _ ?_
    | with_reducible refine Steady.choice ?_ ?_
    | split
    | with_reducible apply Steady.upd

theorem State.grantCycle_steady {a s : State} (g : Nat) (trips : List Nat) (hk : Steady a s) : Steady a (State.grantCycle s g trips) := by
  unfold State.grantCycle
  extract_lets s1 o s2 q n out bars r s3 s4
  have h2 : Steady a s2 := State.offerEngine_steady _ _ (State.arrive_steady _ hk)
  clear_value s2
  have hr : Steady a r.1 := Steady.foldl_fst (fun _ _ h => State.bankStep_steady _ _ _ _ _ _ h) _ h2
  clear_value r
  exact State.modGroup_steady _ _ (State.parkAll_steady _ (State.modGroup_steady _ _ hr))

theorem State.gateAdmit_steady {a : State} {s : State} (g : Nat) (hk : Steady a s) : Steady a (State.gateAdmit s g) := by
  unfold State.gateAdmit
  repeat' first
    | with_reducible assumption
    | intro _
    | (extract_lets +onlyGivenNames v; refine Steady.cut (v := v) ?_ (fun _ => ?_); rotate_left; clear_value v; revert v; intros; rotate_right; unfold v; clear v)
    | (extract_lets +onlyGivenNames v; clear_value v; revert v; intros)
    | with_reducible apply State.modGroup_steady
    | with_reducible apply State.modPort_steady
    | with_reducible refine Steady.foldState (fun _ _ _ => ?_) ?_
    | with_reducible refine Steady.foldl (fun _ _ _ => ?_) _ ?_
    | with_reducible refine Steady.choice ?_ ?_
    | split
    | with_reducible apply Steady.upd

theorem State.grantDue_steady {a : State} {s : State} (g : Nat) (hk : Steady a s) : Steady a (State.grantDue s g) := by
  unfold State.grantDue
  repeat' first
    | with_reducible assumption
    | intro _
    | (extract_lets +onlyGivenNames v; refine Steady.cut (v := v) ?_ (fun _ => ?_); rotate_left; clear_value v; revert v; intros; rotate_right; unfold v; clear v)
    | (extract_lets +onlyGivenNames v; clear_value v; revert v; intros)
    | with_reducible apply State.grantCycle_steady
    | with_reducible apply State.gateAdmit_steady
    | with_reducible refine Steady.foldState (fun _ _ _ => ?_) ?_
    | with_reducible refine Steady.foldl (fun _ _ _ => ?_) _ ?_
    | with_reducible refine Steady.choice ?_ ?_
    | split
    | with_reducible apply Steady.upd

theorem State.countPort_steady {a : State} {s : State} (p : Nat) (hk : Steady a s) : Steady a (State.countPort s p) := by
  unfold State.countPort
  repeat' first
    | with_reducible assumption
    | intro _
    | (extract_lets +onlyGivenNames v; refine Steady.cut (v := v) ?_ (fun _ => ?_); rotate_left; clear_value v; revert v; intros; rotate_right; unfold v; clear v)
    | (extract_lets +onlyGivenNames v; clear_value v; revert v; intros)
    | with_reducible apply State.bump_steady
    | with_reducible refine Steady.foldState (fun _ _ _ => ?_) ?_
    | with_reducible refine Steady.foldl (fun _ _ _ => ?_) _ ?_
    | with_reducible refine Steady.choice ?_ ?_
    | split
    | with_reducible apply Steady.upd

theorem State.leaseCycle_steady {a : State} {s : State} (p : Nat) (hk : Steady a s) : Steady a (State.leaseCycle s p) := by
  unfold State.leaseCycle
  repeat' first
    | with_reducible assumption
    | intro _
    | (extract_lets +onlyGivenNames v; refine Steady.cut (v := v) ?_ (fun _ => ?_); rotate_left; clear_value v; revert v; intros; rotate_right; unfold v; clear v)
    | (extract_lets +onlyGivenNames v; clear_value v; revert v; intros)
    | with_reducible apply State.modPort_steady
    | with_reducible refine Steady.foldState (fun _ _ _ => ?_) ?_
    | with_reducible refine Steady.foldl (fun _ _ _ => ?_) _ ?_
    | with_reducible refine Steady.choice ?_ ?_
    | split
    | with_reducible apply Steady.upd

theorem State.droopCycle_steady {a : State} {s : State} (d : Nat) (hk : Steady a s) : Steady a (State.droopCycle s d) := by
  unfold State.droopCycle
  repeat' first
    | with_reducible assumption
    | intro _
    | (extract_lets +onlyGivenNames v; refine Steady.cut (v := v) ?_ (fun _ => ?_); rotate_left; clear_value v; revert v; intros; rotate_right; unfold v; clear v)
    | (extract_lets +onlyGivenNames v; clear_value v; revert v; intros)
    | with_reducible apply State.modDom_steady
    | with_reducible apply State.bump_steady
    | with_reducible refine Steady.foldState (fun _ _ _ => ?_) ?_
    | with_reducible refine Steady.foldl (fun _ _ _ => ?_) _ ?_
    | with_reducible refine Steady.choice ?_ ?_
    | split
    | with_reducible apply Steady.upd

theorem State.sendEvent_steady {a : State} {s : State} (p : Nat) (hk : Steady a s) : Steady a (State.sendEvent s p) := by
  unfold State.sendEvent
  repeat' first
    | with_reducible assumption
    | intro _
    | (extract_lets +onlyGivenNames v; refine Steady.cut (v := v) ?_ (fun _ => ?_); rotate_left; clear_value v; revert v; intros; rotate_right; unfold v; clear v)
    | (extract_lets +onlyGivenNames v; clear_value v; revert v; intros)
    | with_reducible apply State.driveEvt_steady
    | with_reducible apply State.modPort_steady
    | with_reducible refine Steady.foldState (fun _ _ _ => ?_) ?_
    | with_reducible refine Steady.foldl (fun _ _ _ => ?_) _ ?_
    | with_reducible refine Steady.choice ?_ ?_
    | split
    | with_reducible apply Steady.upd

theorem State.resyncRead_steady {a : State} {s : State} (hk : Steady a s) : Steady a (State.resyncRead s) := by
  unfold State.resyncRead
  repeat' first
    | with_reducible assumption
    | intro _
    | (extract_lets +onlyGivenNames v; refine Steady.cut (v := v) ?_ (fun _ => ?_); rotate_left; clear_value v; revert v; intros; rotate_right; unfold v; clear v)
    | (extract_lets +onlyGivenNames v; clear_value v; revert v; intros)
    | with_reducible apply State.sendLine_steady
    | with_reducible refine Steady.foldState (fun _ _ _ => ?_) ?_
    | with_reducible refine Steady.foldl (fun _ _ _ => ?_) _ ?_
    | with_reducible refine Steady.choice ?_ ?_
    | split
    | with_reducible apply Steady.upd

theorem State.flushLink_steady {a : State} {s : State} (tp : Bool) (hk : Steady a s) : Steady a (State.flushLink s tp) := by
  unfold State.flushLink
  repeat' first
    | with_reducible assumption
    | intro _
    | (extract_lets +onlyGivenNames v; refine Steady.cut (v := v) ?_ (fun _ => ?_); rotate_left; clear_value v; revert v; intros; rotate_right; unfold v; clear v)
    | (extract_lets +onlyGivenNames v; clear_value v; revert v; intros)
    | with_reducible apply State.drive_steady
    | with_reducible apply State.setLink_steady
    | with_reducible refine Steady.foldState (fun _ _ _ => ?_) ?_
    | with_reducible refine Steady.foldl (fun _ _ _ => ?_) _ ?_
    | with_reducible refine Steady.choice ?_ ?_
    | split
    | with_reducible apply Steady.upd

theorem State.endRunning_steady {a : State} {s : State} (hk : Steady a s) : Steady a (State.endRunning s) := by
  unfold State.endRunning
  repeat' first
    | with_reducible assumption
    | intro _
    | (extract_lets +onlyGivenNames v; refine Steady.cut (v := v) ?_ (fun _ => ?_); rotate_left; clear_value v; revert v; intros; rotate_right; unfold v; clear v)
    | (extract_lets +onlyGivenNames v; clear_value v; revert v; intros)
    | with_reducible apply State.hogDue_steady
    | with_reducible apply State.settleAll_steady
    | with_reducible apply State.grantDue_steady
    | with_reducible apply State.countPort_steady
    | with_reducible apply State.bump_steady
    | with_reducible apply State.leaseCycle_steady
    | with_reducible apply State.droopCycle_steady
    | with_reducible apply State.sendEvent_steady
    | with_reducible apply State.resyncRead_steady
    | with_reducible apply State.flushLink_steady
    | with_reducible refine Steady.foldState (fun _ _ _ => ?_) ?_
    | with_reducible refine Steady.foldl (fun _ _ _ => ?_) _ ?_
    | with_reducible refine Steady.choice ?_ ?_
    | split
    | with_reducible apply Steady.upd

theorem State.freezeAll_steady {a : State} {s : State} (hk : Steady a s) : Steady a (State.freezeAll s) := by
  unfold State.freezeAll
  repeat' first
    | with_reducible assumption
    | intro _
    | (extract_lets +onlyGivenNames v; refine Steady.cut (v := v) ?_ (fun _ => ?_); rotate_left; clear_value v; revert v; intros; rotate_right; unfold v; clear v)
    | (extract_lets +onlyGivenNames v; clear_value v; revert v; intros)
    | with_reducible apply State.setReg_steady
    | with_reducible refine Steady.foldState (fun _ _ _ => ?_) ?_
    | with_reducible refine Steady.foldl (fun _ _ _ => ?_) _ ?_
    | with_reducible refine Steady.choice ?_ ?_
    | split
    | with_reducible apply Steady.upd

theorem State.powerOff_steady {a s : State} (sl : Nat) (hk : Steady a s) : Steady a (State.powerOff s sl) := by
  unfold State.powerOff
  refine State.modSlice_steady _ _ (hk.trans ?_)
  exact ⟨rfl, rfl, rfl, rfl, rfl, Memory.wf_tclear _ _ _, Memory.wf_tclear _ _ _, List.suffix_refl _, Nat.le_refl _, Nat.le_refl _⟩

theorem State.stepE5_steady {a : State} {s : State} (e : Entry) (hk : Steady a s) : Steady a (State.stepE5 s e) := by
  unfold State.stepE5
  repeat' first
    | with_reducible assumption
    | intro _
    | (extract_lets +onlyGivenNames v; refine Steady.cut (v := v) ?_ (fun _ => ?_); rotate_left; clear_value v; revert v; intros; rotate_right; unfold v; clear v)
    | (extract_lets +onlyGivenNames v; clear_value v; revert v; intros)
    | with_reducible apply State.modDom_steady
    | with_reducible apply State.powerOff_steady
    | with_reducible apply State.askWhenFree_steady
    | with_reducible refine Steady.foldState (fun _ _ _ => ?_) ?_
    | with_reducible refine Steady.foldl (fun _ _ _ => ?_) _ ?_
    | with_reducible refine Steady.choice ?_ ?_
    | split
    | with_reducible apply Steady.upd

theorem State.enterState_steady {a : State} {s : State} (target : Nat) (hk : Steady a s) : Steady a (State.enterState s target) := by
  unfold State.enterState
  repeat' first
    | with_reducible assumption
    | intro _
    | (extract_lets +onlyGivenNames v; refine Steady.cut (v := v) ?_ (fun _ => ?_); rotate_left; clear_value v; revert v; intros; rotate_right; unfold v; clear v)
    | (extract_lets +onlyGivenNames v; clear_value v; revert v; intros)
    | with_reducible apply State.setBit_steady
    | with_reducible apply State.setFld_steady
    | with_reducible apply State.setEntry_steady
    | with_reducible refine Steady.foldState (fun _ _ _ => ?_) ?_
    | with_reducible refine Steady.foldl (fun _ _ _ => ?_) _ ?_
    | with_reducible refine Steady.choice ?_ ?_
    | split
    | with_reducible apply Steady.upd

theorem State.testSpare_steady {a : State} {s : State} (t : SpareTest) (hk : Steady a s) : Steady a (State.testSpare s t) := by
  unfold State.testSpare
  repeat' first
    | with_reducible assumption
    | intro _
    | (extract_lets +onlyGivenNames v; refine Steady.cut (v := v) ?_ (fun _ => ?_); rotate_left; clear_value v; revert v; intros; rotate_right; unfold v; clear v)
    | (extract_lets +onlyGivenNames v; clear_value v; revert v; intros)
    | with_reducible apply State.setBit_steady
    | with_reducible apply State.finding_steady
    | with_reducible apply State.accessFault_steady
    | with_reducible apply State.arrayFault_steady
    | with_reducible refine Steady.foldState (fun _ _ _ => ?_) ?_
    | with_reducible refine Steady.foldl (fun _ _ _ => ?_) _ ?_
    | with_reducible refine Steady.choice ?_ ?_
    | split
    | with_reducible apply Steady.upd

theorem State.testSparesFree_steady {a : State} {s : State} (sl : Nat) (hk : Steady a s) : Steady a (State.testSparesFree s sl) := by
  unfold State.testSparesFree
  repeat' first
    | with_reducible assumption
    | intro _
    | (extract_lets +onlyGivenNames v; refine Steady.cut (v := v) ?_ (fun _ => ?_); rotate_left; clear_value v; revert v; intros; rotate_right; unfold v; clear v)
    | (extract_lets +onlyGivenNames v; clear_value v; revert v; intros)
    | with_reducible apply State.testSpare_steady
    | with_reducible apply State.takeFree_steady
    | with_reducible refine Steady.foldState (fun _ _ _ => ?_) ?_
    | with_reducible refine Steady.foldl (fun _ _ _ => ?_) _ ?_
    | with_reducible refine Steady.choice ?_ ?_
    | split
    | with_reducible apply Steady.upd

theorem State.powerOn_steady {a : State} {s : State} (sl : Nat) (hk : Steady a s) : Steady a (State.powerOn s sl) := by
  unfold State.powerOn
  repeat' first
    | with_reducible assumption
    | intro _
    | (extract_lets +onlyGivenNames v; refine Steady.cut (v := v) ?_ (fun _ => ?_); rotate_left; clear_value v; revert v; intros; rotate_right; unfold v; clear v)
    | (extract_lets +onlyGivenNames v; clear_value v; revert v; intros)
    | with_reducible apply State.modSlice_steady
    | with_reducible apply State.setFld_steady
    | with_reducible refine Steady.foldState (fun _ _ _ => ?_) ?_
    | with_reducible refine Steady.foldl (fun _ _ _ => ?_) _ ?_
    | with_reducible refine Steady.choice ?_ ?_
    | split
    | with_reducible apply Steady.upd

theorem State.twinAfterPs2_steady {a : State} {s : State} (off : List Nat) (hk : Steady a s) : Steady a (State.twinAfterPs2 s off) := by
  unfold State.twinAfterPs2
  repeat' first
    | with_reducible assumption
    | intro _
    | (extract_lets +onlyGivenNames v; refine Steady.cut (v := v) ?_ (fun _ => ?_); rotate_left; clear_value v; revert v; intros; rotate_right; unfold v; clear v)
    | (extract_lets +onlyGivenNames v; clear_value v; revert v; intros)
    | with_reducible apply State.markDirty_steady
    | with_reducible apply State.sendControl_steady
    | with_reducible apply State.goDown_steady
    | with_reducible refine Steady.foldState (fun _ _ _ => ?_) ?_
    | with_reducible refine Steady.foldl (fun _ _ _ => ?_) _ ?_
    | with_reducible refine Steady.choice ?_ ?_
    | split
    | with_reducible apply Steady.upd

theorem State.finishPs2_steady {a : State} {s : State} (hk : Steady a s) : Steady a (State.finishPs2 s) := by
  unfold State.finishPs2
  repeat' first
    | with_reducible assumption
    | intro _
    | (extract_lets +onlyGivenNames v; refine Steady.cut (v := v) ?_ (fun _ => ?_); rotate_left; clear_value v; revert v; intros; rotate_right; unfold v; clear v)
    | (extract_lets +onlyGivenNames v; clear_value v; revert v; intros)
    | with_reducible apply State.testSparesFree_steady
    | with_reducible apply State.powerOn_steady
    | with_reducible apply State.modDom_steady
    | with_reducible apply State.modPort_steady
    | with_reducible apply State.twinAfterPs2_steady
    | with_reducible apply State.backToPs0_steady
    | with_reducible refine Steady.foldState (fun _ _ _ => ?_) ?_
    | with_reducible refine Steady.foldl (fun _ _ _ => ?_) _ ?_
    | with_reducible refine Steady.choice ?_ ?_
    | split
    | with_reducible apply Steady.upd

theorem State.startExit_steady {a : State} {s : State} (hk : Steady a s) : Steady a (State.startExit s) := by
  unfold State.startExit
  repeat' first
    | with_reducible assumption
    | intro _
    | (extract_lets +onlyGivenNames v; refine Steady.cut (v := v) ?_ (fun _ => ?_); rotate_left; clear_value v; revert v; intros; rotate_right; unfold v; clear v)
    | (extract_lets +onlyGivenNames v; clear_value v; revert v; intros)
    | with_reducible apply State.backToPs0_steady
    | with_reducible apply State.finishPs2_steady
    | with_reducible apply State.setEntry_steady
    | with_reducible apply State.askWhenFree_steady
    | with_reducible refine Steady.foldState (fun _ _ _ => ?_) ?_
    | with_reducible refine Steady.foldl (fun _ _ _ => ?_) _ ?_
    | with_reducible refine Steady.choice ?_ ?_
    | split
    | with_reducible apply Steady.upd

theorem State.entryStep_steady {a s : State} (hk : Steady a s) : Steady a (State.entryStep s) := by
  unfold State.entryStep
  split
  · exact hk
  · rename_i e _
    extract_lets +onlyGivenNames stepTo
    have hs : ∀ k u, Steady a u → Steady a (stepTo k u) := fun _ _ h => State.setEntry_steady _ h
    clear_value stepTo
    split
    · exact hk
    · split
      · exact hs _ _ hk
      · exact hs _ _ (State.freezeAll_steady (Steady.foldState (fun _ _ h => State.abandonShaving_steady _ _ h) hk))
      · split
        · exact hs _ _ hk
        · exact hk
      · split
        · exact hk
        · extract_lets _ s1 s2
          have h1 : Steady a s1 := hs _ _ (Steady.upd hk)
          clear_value s1
          have h2 : Steady a s2 := State.stepE5_steady _ h1
          clear_value s2
          split
          · exact State.outcome_steady _ _ _ h2
          · exact h2
      · split
        · exact hs _ _ hk
        · exact State.askWhenFree_steady _ hk
      · extract_lets s1
        have h1 : Steady a s1 := State.enterState_steady _ hk
        clear_value s1
        split
        · exact State.startExit_steady h1
        · exact h1
      · split
        · exact State.finishPs2_steady hk
        · exact State.askWhenFree_steady _ hk

theorem State.endCycle_steady {a : State} {s : State} (hk : Steady a s) : Steady a (State.endCycle s) := by
  unfold State.endCycle
  repeat' first
    | with_reducible assumption
    | intro _
    | (extract_lets +onlyGivenNames v; refine Steady.cut (v := v) ?_ (fun _ => ?_); rotate_left; clear_value v; revert v; intros; rotate_right; unfold v; clear v)
    | (extract_lets +onlyGivenNames v; clear_value v; revert v; intros)
    | with_reducible apply State.endRunning_steady
    | with_reducible apply State.entryStep_steady
    | with_reducible refine Steady.foldState (fun _ _ _ => ?_) ?_
    | with_reducible refine Steady.foldl (fun _ _ _ => ?_) _ ?_
    | with_reducible refine Steady.choice ?_ ?_
    | split
    | with_reducible apply Steady.upd

theorem State.sample_steady {a : State} {s : State} (ftime : Word) (hk : Steady a s) : Steady a (State.sample s ftime) := by
  unfold State.sample
  repeat' first
    | with_reducible assumption
    | intro _
    | (extract_lets +onlyGivenNames v; refine Steady.cut (v := v) ?_ (fun _ => ?_); rotate_left; clear_value v; revert v; intros; rotate_right; unfold v; clear v)
    | (extract_lets +onlyGivenNames v; clear_value v; revert v; intros)
    | with_reducible apply State.setBit_steady
    | with_reducible refine Steady.foldState (fun _ _ _ => ?_) ?_
    | with_reducible refine Steady.foldl (fun _ _ _ => ?_) _ ?_
    | with_reducible refine Steady.choice ?_ ?_
    | split
    | with_reducible apply Steady.upd

theorem State.settleVolt_steady {a : State} {s : State} (d : Nat) (hk : Steady a s) : Steady a (State.settleVolt s d) := by
  unfold State.settleVolt
  repeat' first
    | with_reducible assumption
    | intro _
    | (extract_lets +onlyGivenNames v; refine Steady.cut (v := v) ?_ (fun _ => ?_); rotate_left; clear_value v; revert v; intros; rotate_right; unfold v; clear v)
    | (extract_lets +onlyGivenNames v; clear_value v; revert v; intros)
    | with_reducible apply State.modDom_steady
    | with_reducible refine Steady.foldState (fun _ _ _ => ?_) ?_
    | with_reducible refine Steady.foldl (fun _ _ _ => ?_) _ ?_
    | with_reducible refine Steady.choice ?_ ?_
    | split
    | with_reducible apply Steady.upd

theorem State.switchOp_steady {a : State} {s : State} (d : Nat) (k : Nat) (hk : Steady a s) : Steady a (State.switchOp s d k) := by
  unfold State.switchOp
  repeat' first
    | with_reducible assumption
    | intro _
    | (extract_lets +onlyGivenNames v; refine Steady.cut (v := v) ?_ (fun _ => ?_); rotate_left; clear_value v; revert v; intros; rotate_right; unfold v; clear v)
    | (extract_lets +onlyGivenNames v; clear_value v; revert v; intros)
    | with_reducible apply State.setFld_steady
    | with_reducible apply State.setBit_steady
    | with_reducible apply State.modDom_steady
    | with_reducible refine Steady.foldState (fun _ _ _ => ?_) ?_
    | with_reducible refine Steady.foldl (fun _ _ _ => ?_) _ ?_
    | with_reducible refine Steady.choice ?_ ?_
    | split
    | with_reducible apply Steady.upd

theorem State.seqPll_steady {a s : State} (d : Nat) (hk : Steady a s) : Steady a (State.seqPll s d) := by
  unfold State.seqPll
  extract_lets q o t aim
  have ha : ∀ k u, Steady a u → Steady a (aim k u) := fun _ _ h => State.modDom_steady _ _ h
  clear_value aim q o t
  repeat' first
    | with_reducible assumption
    | with_reducible apply State.modDom_steady
    | with_reducible apply State.switchOp_steady
    | with_reducible apply ha
    | split

theorem State.retarget_steady {a : State} {s : State} (hk : Steady a s) : Steady a (State.retarget s) := by
  unfold State.retarget
  repeat' first
    | with_reducible assumption
    | intro _
    | (extract_lets +onlyGivenNames v; refine Steady.cut (v := v) ?_ (fun _ => ?_); rotate_left; clear_value v; revert v; intros; rotate_right; unfold v; clear v)
    | (extract_lets +onlyGivenNames v; clear_value v; revert v; intros)
    | with_reducible apply State.aimAt_steady
    | with_reducible refine Steady.foldState (fun _ _ _ => ?_) ?_
    | with_reducible refine Steady.foldl (fun _ _ _ => ?_) _ ?_
    | with_reducible refine Steady.choice ?_ ?_
    | split
    | with_reducible apply Steady.upd

theorem State.endDroopCaps_steady {a : State} {s : State} (hk : Steady a s) : Steady a (State.endDroopCaps s) := by
  unfold State.endDroopCaps
  repeat' first
    | with_reducible assumption
    | intro _
    | (extract_lets +onlyGivenNames v; refine Steady.cut (v := v) ?_ (fun _ => ?_); rotate_left; clear_value v; revert v; intros; rotate_right; unfold v; clear v)
    | (extract_lets +onlyGivenNames v; clear_value v; revert v; intros)
    | with_reducible apply State.modDom_steady
    | with_reducible refine Steady.foldState (fun _ _ _ => ?_) ?_
    | with_reducible refine Steady.foldl (fun _ _ _ => ?_) _ ?_
    | with_reducible refine Steady.choice ?_ ?_
    | split
    | with_reducible apply Steady.upd

theorem State.countIdle_steady {a : State} {s : State} (acts : List (Nat × Nat)) (hk : Steady a s) : Steady a (State.countIdle s acts) := by
  unfold State.countIdle
  repeat' first
    | with_reducible assumption
    | intro _
    | (extract_lets +onlyGivenNames v; refine Steady.cut (v := v) ?_ (fun _ => ?_); rotate_left; clear_value v; revert v; intros; rotate_right; unfold v; clear v)
    | (extract_lets +onlyGivenNames v; clear_value v; revert v; intros)
    | with_reducible apply State.modDom_steady
    | with_reducible refine Steady.foldState (fun _ _ _ => ?_) ?_
    | with_reducible refine Steady.foldl (fun _ _ _ => ?_) _ ?_
    | with_reducible refine Steady.choice ?_ ?_
    | split
    | with_reducible apply Steady.upd

theorem State.takeAction_steady {a : State} {s : State} (a1 : Throttle) (hk : Steady a s) : Steady a (State.takeAction s a1) := by
  unfold State.takeAction
  repeat' first
    | with_reducible assumption
    | intro _
    | (extract_lets +onlyGivenNames v; refine Steady.cut (v := v) ?_ (fun _ => ?_); rotate_left; clear_value v; revert v; intros; rotate_right; unfold v; clear v)
    | (extract_lets +onlyGivenNames v; clear_value v; revert v; intros)
    | with_reducible apply State.setFld_steady
    | with_reducible apply State.setBit_steady
    | with_reducible refine Steady.foldState (fun _ _ _ => ?_) ?_
    | with_reducible refine Steady.foldl (fun _ _ _ => ?_) _ ?_
    | with_reducible refine Steady.choice ?_ ?_
    | split
    | with_reducible apply Steady.upd

theorem State.throttle_steady {a : State} {s : State} (hk : Steady a s) : Steady a (State.throttle s) := by
  unfold State.throttle
  repeat' first
    | with_reducible assumption
    | intro _
    | (extract_lets +onlyGivenNames v; refine Steady.cut (v := v) ?_ (fun _ => ?_); rotate_left; clear_value v; revert v; intros; rotate_right; unfold v; clear v)
    | (extract_lets +onlyGivenNames v; clear_value v; revert v; intros)
    | with_reducible apply State.takeAction_steady
    | with_reducible apply State.setBit_steady
    | with_reducible refine Steady.foldState (fun _ _ _ => ?_) ?_
    | with_reducible refine Steady.foldl (fun _ _ _ => ?_) _ ?_
    | with_reducible refine Steady.choice ?_ ?_
    | split
    | with_reducible apply Steady.upd

theorem State.manage_steady {a : State} {s : State} (acts : List (Nat × Nat)) (hk : Steady a s) : Steady a (State.manage s acts) := by
  unfold State.manage
  repeat' first
    | with_reducible assumption
    | intro _
    | (extract_lets +onlyGivenNames v; refine Steady.cut (v := v) ?_ (fun _ => ?_); rotate_left; clear_value v; revert v; intros; rotate_right; unfold v; clear v)
    | (extract_lets +onlyGivenNames v; clear_value v; revert v; intros)
    | with_reducible apply State.answerPower_steady
    | with_reducible apply State.retarget_steady
    | with_reducible apply State.endDroopCaps_steady
    | with_reducible apply State.countIdle_steady
    | with_reducible apply State.throttle_steady
    | with_reducible refine Steady.foldState (fun _ _ _ => ?_) ?_
    | with_reducible refine Steady.foldl (fun _ _ _ => ?_) _ ?_
    | with_reducible refine Steady.choice ?_ ?_
    | split
    | with_reducible apply Steady.upd

theorem State.noteOver_steady {a : State} {s : State} (hk : Steady a s) : Steady a (State.noteOver s) := by
  unfold State.noteOver
  repeat' first
    | with_reducible assumption
    | intro _
    | (extract_lets +onlyGivenNames v; refine Steady.cut (v := v) ?_ (fun _ => ?_); rotate_left; clear_value v; revert v; intros; rotate_right; unfold v; clear v)
    | (extract_lets +onlyGivenNames v; clear_value v; revert v; intros)
    | with_reducible apply State.setBit_steady
    | with_reducible refine Steady.foldState (fun _ _ _ => ?_) ?_
    | with_reducible refine Steady.foldl (fun _ _ _ => ?_) _ ?_
    | with_reducible refine Steady.choice ?_ ?_
    | split
    | with_reducible apply Steady.upd

theorem State.countActs_steady {a : State} {s : State} (hk : Steady a s) : Steady a (State.countActs s) := by
  unfold State.countActs
  repeat' first
    | with_reducible assumption
    | intro _
    | (extract_lets +onlyGivenNames v; refine Steady.cut (v := v) ?_ (fun _ => ?_); rotate_left; clear_value v; revert v; intros; rotate_right; unfold v; clear v)
    | (extract_lets +onlyGivenNames v; clear_value v; revert v; intros)
    | with_reducible apply State.modDom_steady
    | with_reducible refine Steady.foldState (fun _ _ _ => ?_) ?_
    | with_reducible refine Steady.foldl (fun _ _ _ => ?_) _ ?_
    | with_reducible refine Steady.choice ?_ ?_
    | split
    | with_reducible apply Steady.upd

theorem State.putCur_steady {a : State} {s : State} (rail : Nat) (i : Nat) (hk : Steady a s) : Steady a (State.putCur s rail i) := by
  unfold State.putCur
  repeat' first
    | with_reducible assumption
    | intro _
    | (extract_lets +onlyGivenNames v; refine Steady.cut (v := v) ?_ (fun _ => ?_); rotate_left; clear_value v; revert v; intros; rotate_right; unfold v; clear v)
    | (extract_lets +onlyGivenNames v; clear_value v; revert v; intros)
    | with_reducible refine Steady.foldState (fun _ _ _ => ?_) ?_
    | with_reducible refine Steady.foldl (fun _ _ _ => ?_) _ ?_
    | with_reducible refine Steady.choice ?_ ?_
    | split
    | with_reducible apply Steady.upd

theorem State.estimate_steady {a s : State} (temps margins : List Nat) (hk : Steady a s) : Steady a (State.estimate s temps margins) := by
  unfold State.estimate
  extract_lets e t t1 t2 t3
  have h : Steady a t := Steady.stepFree 1 (State.countActs_steady hk)
  clear_value t
  have h1 : Steady a t1 := Steady.foldState (fun _ _ h => State.putCur_steady _ _ h) h
  clear_value t1
  have h2 : Steady a t2 := State.putCur_steady _ _ h1
  clear_value t2
  have h3 : Steady a t3 := State.setFld_steady _ _ _ _ (State.setFld_steady _ _ _ _ h2)
  clear_value t3
  refine Steady.foldState (fun _ _ h => ?_) h3
  extract_lets _ u
  have hu : Steady a u := State.setFld_steady _ _ _ _ (State.setFld_steady _ _ _ _ (State.setFld_steady _ _ _ _ h))
  clear_value u
  exact State.setFld_steady _ _ _ _ (State.setFld_steady _ _ _ _ hu)

theorem State.driveTherm_steady {a : State} {s : State} (hk : Steady a s) : Steady a (State.driveTherm s) := by
  unfold State.driveTherm
  repeat' first
    | with_reducible assumption
    | intro _
    | (extract_lets +onlyGivenNames v; refine Steady.cut (v := v) ?_ (fun _ => ?_); rotate_left; clear_value v; revert v; intros; rotate_right; unfold v; clear v)
    | (extract_lets +onlyGivenNames v; clear_value v; revert v; intros)
    | with_reducible refine Steady.foldState (fun _ _ _ => ?_) ?_
    | with_reducible refine Steady.foldl (fun _ _ _ => ?_) _ ?_
    | with_reducible refine Steady.choice ?_ ?_
    | split
    | with_reducible apply Steady.upd

theorem State.countVar_steady {a : State} {s : State} (hk : Steady a s) : Steady a (State.countVar s) := by
  unfold State.countVar
  repeat' first
    | with_reducible assumption
    | intro _
    | (extract_lets +onlyGivenNames v; refine Steady.cut (v := v) ?_ (fun _ => ?_); rotate_left; clear_value v; revert v; intros; rotate_right; unfold v; clear v)
    | (extract_lets +onlyGivenNames v; clear_value v; revert v; intros)
    | with_reducible apply State.bump_steady
    | with_reducible refine Steady.foldState (fun _ _ _ => ?_) ?_
    | with_reducible refine Steady.foldl (fun _ _ _ => ?_) _ ?_
    | with_reducible refine Steady.choice ?_ ?_
    | split
    | with_reducible apply Steady.upd

theorem State.seqVolt_steady {a : State} {s : State} (d : Nat) (due : Nat) (hk : Steady a s) : Steady a (State.seqVolt s d due) := by
  unfold State.seqVolt
  repeat' first
    | with_reducible assumption
    | intro _
    | (extract_lets +onlyGivenNames v; refine Steady.cut (v := v) ?_ (fun _ => ?_); rotate_left; clear_value v; revert v; intros; rotate_right; unfold v; clear v)
    | (extract_lets +onlyGivenNames v; clear_value v; revert v; intros)
    | with_reducible apply State.setBit_steady
    | with_reducible apply State.askVid_steady
    | with_reducible apply State.modDom_steady
    | with_reducible refine Steady.foldState (fun _ _ _ => ?_) ?_
    | with_reducible refine Steady.foldl (fun _ _ _ => ?_) _ ?_
    | with_reducible refine Steady.choice ?_ ?_
    | split
    | with_reducible apply Steady.upd

theorem State.powerTurn_steady {a : State} {s : State} (temps : List Nat) (margins : List Nat) (hk : Steady a s) : Steady a (State.powerTurn s temps margins) := by
  unfold State.powerTurn
  repeat' first
    | with_reducible assumption
    | intro _
    | (extract_lets +onlyGivenNames v; refine Steady.cut (v := v) ?_ (fun _ => ?_); rotate_left; clear_value v; revert v; intros; rotate_right; unfold v; clear v)
    | (extract_lets +onlyGivenNames v; clear_value v; revert v; intros)
    | with_reducible apply State.settleVolt_steady
    | with_reducible apply State.seqPll_steady
    | with_reducible apply State.manage_steady
    | with_reducible apply State.noteOver_steady
    | with_reducible apply State.estimate_steady
    | with_reducible apply State.driveTherm_steady
    | with_reducible apply State.countVar_steady
    | with_reducible apply State.modDom_steady
    | with_reducible apply State.seqVolt_steady
    | with_reducible refine Steady.foldState (fun _ _ _ => ?_) ?_
    | with_reducible refine Steady.foldl (fun _ _ _ => ?_) _ ?_
    | with_reducible refine Steady.choice ?_ ?_
    | split
    | with_reducible apply Steady.upd

theorem State.swapGroup_steady {a : State} {s : State} (g : Nat) (hk : Steady a s) : Steady a (State.swapGroup s g) := by
  unfold State.swapGroup
  repeat' first
    | with_reducible assumption
    | intro _
    | (extract_lets +onlyGivenNames v; refine Steady.cut (v := v) ?_ (fun _ => ?_); rotate_left; clear_value v; revert v; intros; rotate_right; unfold v; clear v)
    | (extract_lets +onlyGivenNames v; clear_value v; revert v; intros)
    | with_reducible apply State.setFld_steady
    | with_reducible apply State.setReg_steady
    | with_reducible apply State.modGroup_steady
    | with_reducible refine Steady.foldState (fun _ _ _ => ?_) ?_
    | with_reducible refine Steady.foldl (fun _ _ _ => ?_) _ ?_
    | with_reducible refine Steady.choice ?_ ?_
    | split
    | with_reducible apply Steady.upd

theorem State.noteNoSlot_steady {a : State} {s : State} (hk : Steady a s) : Steady a (State.noteNoSlot s) := by
  unfold State.noteNoSlot
  repeat' first
    | with_reducible assumption
    | intro _
    | (extract_lets +onlyGivenNames v; refine Steady.cut (v := v) ?_ (fun _ => ?_); rotate_left; clear_value v; revert v; intros; rotate_right; unfold v; clear v)
    | (extract_lets +onlyGivenNames v; clear_value v; revert v; intros)
    | with_reducible apply State.setReg_steady
    | with_reducible apply State.setBit_steady
    | with_reducible refine Steady.foldState (fun _ _ _ => ?_) ?_
    | with_reducible refine Steady.foldl (fun _ _ _ => ?_) _ ?_
    | with_reducible refine Steady.choice ?_ ?_
    | split
    | with_reducible apply Steady.upd

theorem State.startCycle_steady {a : State} {s : State} (hk : Steady a s) : Steady a (State.startCycle s) := by
  unfold State.startCycle
  repeat' first
    | with_reducible assumption
    | intro _
    | (extract_lets +onlyGivenNames v; refine Steady.cut (v := v) ?_ (fun _ => ?_); rotate_left; clear_value v; revert v; intros; rotate_right; unfold v; clear v)
    | (extract_lets +onlyGivenNames v; clear_value v; revert v; intros)
    | with_reducible apply State.modSlice_steady
    | with_reducible apply State.modGroup_steady
    | with_reducible apply State.setLink_steady
    | with_reducible refine Steady.foldState (fun _ _ _ => ?_) ?_
    | with_reducible refine Steady.foldl (fun _ _ _ => ?_) _ ?_
    | with_reducible refine Steady.choice ?_ ?_
    | split
    | with_reducible apply Steady.upd

theorem State.stallPort_steady {a : State} {s : State} (p : Nat) (hk : Steady a s) : Steady a (State.stallPort s p) := by
  unfold State.stallPort
  repeat' first
    | with_reducible assumption
    | intro _
    | (extract_lets +onlyGivenNames v; refine Steady.cut (v := v) ?_ (fun _ => ?_); rotate_left; clear_value v; revert v; intros; rotate_right; unfold v; clear v)
    | (extract_lets +onlyGivenNames v; clear_value v; revert v; intros)
    | with_reducible apply State.setFld_steady
    | with_reducible apply State.modPort_steady
    | with_reducible refine Steady.foldState (fun _ _ _ => ?_) ?_
    | with_reducible refine Steady.foldl (fun _ _ _ => ?_) _ ?_
    | with_reducible refine Steady.choice ?_ ?_
    | split
    | with_reducible apply Steady.upd

theorem State.stallCtx_steady {a : State} {s : State} (i : Nat) (hk : Steady a s) : Steady a (State.stallCtx s i) := by
  unfold State.stallCtx
  repeat' first
    | with_reducible assumption
    | intro _
    | (extract_lets +onlyGivenNames v; refine Steady.cut (v := v) ?_ (fun _ => ?_); rotate_left; clear_value v; revert v; intros; rotate_right; unfold v; clear v)
    | (extract_lets +onlyGivenNames v; clear_value v; revert v; intros)
    | with_reducible refine Steady.foldState (fun _ _ _ => ?_) ?_
    | with_reducible refine Steady.foldl (fun _ _ _ => ?_) _ ?_
    | with_reducible refine Steady.choice ?_ ?_
    | split
    | with_reducible apply Steady.upd

theorem State.countQuiet_steady {a : State} {s : State} (hk : Steady a s) : Steady a (State.countQuiet s) := by
  unfold State.countQuiet
  repeat' first
    | with_reducible assumption
    | intro _
    | (extract_lets +onlyGivenNames v; refine Steady.cut (v := v) ?_ (fun _ => ?_); rotate_left; clear_value v; revert v; intros; rotate_right; unfold v; clear v)
    | (extract_lets +onlyGivenNames v; clear_value v; revert v; intros)
    | with_reducible apply State.setFld_steady
    | with_reducible refine Steady.foldState (fun _ _ _ => ?_) ?_
    | with_reducible refine Steady.foldl (fun _ _ _ => ?_) _ ?_
    | with_reducible refine Steady.choice ?_ ?_
    | split
    | with_reducible apply Steady.upd

theorem State.nextRamps_steady {a : State} {s : State} (hk : Steady a s) : Steady a (State.nextRamps s) := by
  unfold State.nextRamps
  repeat' first
    | with_reducible assumption
    | intro _
    | (extract_lets +onlyGivenNames v; refine Steady.cut (v := v) ?_ (fun _ => ?_); rotate_left; clear_value v; revert v; intros; rotate_right; unfold v; clear v)
    | (extract_lets +onlyGivenNames v; clear_value v; revert v; intros)
    | with_reducible apply State.modPort_steady
    | with_reducible apply State.setFld_steady
    | with_reducible refine Steady.foldState (fun _ _ _ => ?_) ?_
    | with_reducible refine Steady.foldl (fun _ _ _ => ?_) _ ?_
    | with_reducible refine Steady.choice ?_ ?_
    | split
    | with_reducible apply Steady.upd

theorem State.captureHang_steady {a : State} {s : State} (kind : Nat) (port : Nat) (ctx : Nat) (tag : Nat) (opc : Nat) (hk : Steady a s) : Steady a (State.captureHang s kind port ctx tag opc) := by
  unfold State.captureHang
  repeat' first
    | with_reducible assumption
    | intro _
    | (extract_lets +onlyGivenNames v; refine Steady.cut (v := v) ?_ (fun _ => ?_); rotate_left; clear_value v; revert v; intros; rotate_right; unfold v; clear v)
    | (extract_lets +onlyGivenNames v; clear_value v; revert v; intros)
    | with_reducible apply State.setReg_steady
    | with_reducible refine Steady.foldState (fun _ _ _ => ?_) ?_
    | with_reducible refine Steady.foldl (fun _ _ _ => ?_) _ ?_
    | with_reducible refine Steady.choice ?_ ?_
    | split
    | with_reducible apply Steady.upd

theorem State.putPoint_steady {a : State} {s : State} (d : Nat) (k : Nat) (t : Nat) (hk : Steady a s) : Steady a (State.putPoint s d k t) := by
  unfold State.putPoint
  repeat' first
    | with_reducible assumption
    | intro _
    | (extract_lets +onlyGivenNames v; refine Steady.cut (v := v) ?_ (fun _ => ?_); rotate_left; clear_value v; revert v; intros; rotate_right; unfold v; clear v)
    | (extract_lets +onlyGivenNames v; clear_value v; revert v; intros)
    | with_reducible apply State.setFld_steady
    | with_reducible refine Steady.foldState (fun _ _ _ => ?_) ?_
    | with_reducible refine Steady.foldl (fun _ _ _ => ?_) _ ?_
    | with_reducible refine Steady.choice ?_ ?_
    | split
    | with_reducible apply Steady.upd

theorem State.clearKeep_steady {a : State} {s : State} (hk : Steady a s) : Steady a (State.clearKeep s) := by
  unfold State.clearKeep
  repeat' first
    | with_reducible assumption
    | intro _
    | (extract_lets +onlyGivenNames v; refine Steady.cut (v := v) ?_ (fun _ => ?_); rotate_left; clear_value v; revert v; intros; rotate_right; unfold v; clear v)
    | (extract_lets +onlyGivenNames v; clear_value v; revert v; intros)
    | with_reducible apply State.setReg_steady
    | with_reducible apply State.setBit_steady
    | with_reducible refine Steady.foldState (fun _ _ _ => ?_) ?_
    | with_reducible refine Steady.foldl (fun _ _ _ => ?_) _ ?_
    | with_reducible refine Steady.choice ?_ ?_
    | split
    | with_reducible apply Steady.upd

theorem State.closesOver_steady {a : State} {s : State} (i : Nat) (hk : Steady a s) : Steady a (State.closesOver s i) := by
  unfold State.closesOver
  repeat' first
    | with_reducible assumption
    | intro _
    | (extract_lets +onlyGivenNames v; refine Steady.cut (v := v) ?_ (fun _ => ?_); rotate_left; clear_value v; revert v; intros; rotate_right; unfold v; clear v)
    | (extract_lets +onlyGivenNames v; clear_value v; revert v; intros)
    | with_reducible apply State.settle_steady
    | with_reducible apply State.answer_steady
    | with_reducible refine Steady.foldState (fun _ _ _ => ?_) ?_
    | with_reducible refine Steady.foldl (fun _ _ _ => ?_) _ ?_
    | with_reducible refine Steady.choice ?_ ?_
    | split
    | with_reducible apply Steady.upd

theorem State.sbClose_steady {a : State} {s : State} (i : Nat) (aborted : Bool) (port : Nat) (hk : Steady a s) : Steady a (State.sbClose s i aborted port) := by
  unfold State.sbClose
  repeat' first
    | with_reducible assumption
    | intro _
    | (extract_lets +onlyGivenNames v; refine Steady.cut (v := v) ?_ (fun _ => ?_); rotate_left; clear_value v; revert v; intros; rotate_right; unfold v; clear v)
    | (extract_lets +onlyGivenNames v; clear_value v; revert v; intros)
    | with_reducible apply State.dropRgn_steady
    | with_reducible apply State.setReg_steady
    | with_reducible apply State.bump_steady
    | with_reducible refine Steady.foldState (fun _ _ _ => ?_) ?_
    | with_reducible refine Steady.foldl (fun _ _ _ => ?_) _ ?_
    | with_reducible refine Steady.choice ?_ ?_
    | split
    | with_reducible apply Steady.upd

theorem State.setRec_steady {a : State} {s : State} (r : BatchRec) (hk : Steady a s) : Steady a (State.setRec s r) := by
  unfold State.setRec
  repeat' first
    | with_reducible assumption
    | intro _
    | (extract_lets +onlyGivenNames v; refine Steady.cut (v := v) ?_ (fun _ => ?_); rotate_left; clear_value v; revert v; intros; rotate_right; unfold v; clear v)
    | (extract_lets +onlyGivenNames v; clear_value v; revert v; intros)
    | with_reducible refine Steady.foldState (fun _ _ _ => ?_) ?_
    | with_reducible refine Steady.foldl (fun _ _ _ => ?_) _ ?_
    | with_reducible refine Steady.choice ?_ ?_
    | split
    | with_reducible apply Steady.upd

theorem State.finishRemote_steady {a : State} {s : State} (p : Nat) (uid : Nat) (hk : Steady a s) : Steady a (State.finishRemote s p uid) := by
  unfold State.finishRemote
  repeat' first
    | with_reducible assumption
    | intro _
    | (extract_lets +onlyGivenNames v; refine Steady.cut (v := v) ?_ (fun _ => ?_); rotate_left; clear_value v; revert v; intros; rotate_right; unfold v; clear v)
    | (extract_lets +onlyGivenNames v; clear_value v; revert v; intros)
    | with_reducible apply State.modReq_steady
    | with_reducible refine Steady.foldState (fun _ _ _ => ?_) ?_
    | with_reducible refine Steady.foldl (fun _ _ _ => ?_) _ ?_
    | with_reducible refine Steady.choice ?_ ?_
    | split
    | with_reducible apply Steady.upd

theorem State.packetAnswered_steady {a : State} {s : State} (w : Sent) (code : Nat) (hk : Steady a s) : Steady a (State.packetAnswered s w code) := by
  unfold State.packetAnswered
  repeat' first
    | with_reducible assumption
    | intro _
    | (extract_lets +onlyGivenNames v; refine Steady.cut (v := v) ?_ (fun _ => ?_); rotate_left; clear_value v; revert v; intros; rotate_right; unfold v; clear v)
    | (extract_lets +onlyGivenNames v; clear_value v; revert v; intros)
    | with_reducible apply State.dropSent_steady
    | with_reducible apply State.setRec_steady
    | with_reducible apply State.modReq_steady
    | with_reducible apply State.setBit_steady
    | with_reducible apply State.finishRemote_steady
    | with_reducible refine Steady.foldState (fun _ _ _ => ?_) ?_
    | with_reducible refine Steady.foldl (fun _ _ _ => ?_) _ ?_
    | with_reducible refine Steady.choice ?_ ?_
    | split
    | with_reducible apply Steady.upd

theorem State.clearPort_steady {a : State} {s : State} (p : Nat) (hk : Steady a s) : Steady a (State.clearPort s p) := by
  unfold State.clearPort
  repeat' first
    | with_reducible assumption
    | intro _
    | (extract_lets +onlyGivenNames v; refine Steady.cut (v := v) ?_ (fun _ => ?_); rotate_left; clear_value v; revert v; intros; rotate_right; unfold v; clear v)
    | (extract_lets +onlyGivenNames v; clear_value v; revert v; intros)
    | with_reducible apply State.closesOver_steady
    | with_reducible apply State.sbClose_steady
    | with_reducible apply State.closeStreams_steady
    | with_reducible apply State.answer_steady
    | with_reducible apply State.settle_steady
    | with_reducible apply State.packetAnswered_steady
    | with_reducible apply State.dropRpHeld_steady
    | with_reducible apply State.settleAll_steady
    | with_reducible apply State.goDown_steady
    | with_reducible refine Steady.foldState (fun _ _ _ => ?_) ?_
    | with_reducible refine Steady.foldl (fun _ _ _ => ?_) _ ?_
    | with_reducible refine Steady.choice ?_ ?_
    | split
    | with_reducible apply Steady.upd

theorem State.clearRead_steady {a : State} {s : State} (off : Nat) (hk : Steady a s) : Steady a (State.clearRead s off) := by
  unfold State.clearRead
  repeat' first
    | with_reducible assumption
    | intro _
    | (extract_lets +onlyGivenNames v; refine Steady.cut (v := v) ?_ (fun _ => ?_); rotate_left; clear_value v; revert v; intros; rotate_right; unfold v; clear v)
    | (extract_lets +onlyGivenNames v; clear_value v; revert v; intros)
    | with_reducible apply State.setReg_steady
    | with_reducible refine Steady.foldState (fun _ _ _ => ?_) ?_
    | with_reducible refine Steady.foldl (fun _ _ _ => ?_) _ ?_
    | with_reducible refine Steady.choice ?_ ?_
    | split
    | with_reducible apply Steady.upd

theorem State.clearSticky_steady {a : State} {s : State} (off : Nat) (st : Nat) (other : Nat) (v : Word) (hk : Steady a s) : Steady a (State.clearSticky s off st other v) := by
  unfold State.clearSticky
  repeat' first
    | with_reducible assumption
    | intro _
    | (extract_lets +onlyGivenNames v; refine Steady.cut (v := v) ?_ (fun _ => ?_); rotate_left; clear_value v; revert v; intros; rotate_right; unfold v; clear v)
    | (extract_lets +onlyGivenNames v; clear_value v; revert v; intros)
    | with_reducible apply State.setReg_steady
    | with_reducible apply State.setFld_steady
    | with_reducible apply State.setBit_steady
    | with_reducible refine Steady.foldState (fun _ _ _ => ?_) ?_
    | with_reducible refine Steady.foldl (fun _ _ _ => ?_) _ ?_
    | with_reducible refine Steady.choice ?_ ?_
    | split
    | with_reducible apply Steady.upd

theorem State.rsvd_steady {a : State} {s : State} (hk : Steady a s) : Steady a (State.rsvd s) := by
  unfold State.rsvd
  repeat' first
    | with_reducible assumption
    | intro _
    | (extract_lets +onlyGivenNames v; refine Steady.cut (v := v) ?_ (fun _ => ?_); rotate_left; clear_value v; revert v; intros; rotate_right; unfold v; clear v)
    | (extract_lets +onlyGivenNames v; clear_value v; revert v; intros)
    | with_reducible apply State.setBit_steady
    | with_reducible refine Steady.foldState (fun _ _ _ => ?_) ?_
    | with_reducible refine Steady.foldl (fun _ _ _ => ?_) _ ?_
    | with_reducible refine Steady.choice ?_ ?_
    | split
    | with_reducible apply Steady.upd

theorem State.storeRw_steady {a : State} {s : State} (off : Nat) (mask : Nat) (v : Word) (hk : Steady a s) : Steady a (State.storeRw s off mask v) := by
  unfold State.storeRw
  repeat' first
    | with_reducible assumption
    | intro _
    | (extract_lets +onlyGivenNames v; refine Steady.cut (v := v) ?_ (fun _ => ?_); rotate_left; clear_value v; revert v; intros; rotate_right; unfold v; clear v)
    | (extract_lets +onlyGivenNames v; clear_value v; revert v; intros)
    | with_reducible apply State.rsvd_steady
    | with_reducible apply State.setReg_steady
    | with_reducible refine Steady.foldState (fun _ _ _ => ?_) ?_
    | with_reducible refine Steady.foldl (fun _ _ _ => ?_) _ ?_
    | with_reducible refine Steady.choice ?_ ?_
    | split
    | with_reducible apply Steady.upd

theorem State.commitView_steady {a : State} {s : State} (off : Nat) (mask : Nat) (v : Word) (hk : Steady a s) : Steady a (State.commitView s off mask v) := by
  unfold State.commitView
  repeat' first
    | with_reducible assumption
    | intro _
    | (extract_lets +onlyGivenNames v; refine Steady.cut (v := v) ?_ (fun _ => ?_); rotate_left; clear_value v; revert v; intros; rotate_right; unfold v; clear v)
    | (extract_lets +onlyGivenNames v; clear_value v; revert v; intros)
    | with_reducible apply State.storeRw_steady
    | with_reducible apply State.setReg_steady
    | with_reducible refine Steady.foldState (fun _ _ _ => ?_) ?_
    | with_reducible refine Steady.foldl (fun _ _ _ => ?_) _ ?_
    | with_reducible refine Steady.choice ?_ ?_
    | split
    | with_reducible apply Steady.upd

theorem State.freeSlot_steady {a : State} {s : State} (i : Nat) (hk : Steady a s) : Steady a (State.freeSlot s i) := by
  unfold State.freeSlot
  repeat' first
    | with_reducible assumption
    | intro _
    | (extract_lets +onlyGivenNames v; refine Steady.cut (v := v) ?_ (fun _ => ?_); rotate_left; clear_value v; revert v; intros; rotate_right; unfold v; clear v)
    | (extract_lets +onlyGivenNames v; clear_value v; revert v; intros)
    | with_reducible apply State.setReg_steady
    | with_reducible refine Steady.foldState (fun _ _ _ => ?_) ?_
    | with_reducible refine Steady.foldl (fun _ _ _ => ?_) _ ?_
    | with_reducible refine Steady.choice ?_ ?_
    | split
    | with_reducible apply Steady.upd

theorem State.evict_steady {a : State} {s : State} (i : Nat) (hk : Steady a s) : Steady a (State.evict s i) := by
  unfold State.evict
  repeat' first
    | with_reducible assumption
    | intro _
    | (extract_lets +onlyGivenNames v; refine Steady.cut (v := v) ?_ (fun _ => ?_); rotate_left; clear_value v; revert v; intros; rotate_right; unfold v; clear v)
    | (extract_lets +onlyGivenNames v; clear_value v; revert v; intros)
    | with_reducible apply State.bump_steady
    | with_reducible apply State.freeSlot_steady
    | with_reducible refine Steady.foldState (fun _ _ _ => ?_) ?_
    | with_reducible refine Steady.foldl (fun _ _ _ => ?_) _ ?_
    | with_reducible refine Steady.choice ?_ ?_
    | split
    | with_reducible apply Steady.upd

theorem State.loadCtx_steady {a : State} {s : State} (c : Nat) (i : Nat) (cb : Nat) (fb : Nat) (hk : Steady a s) : Steady a (State.loadCtx s c i cb fb) := by
  unfold State.loadCtx
  repeat' first
    | with_reducible assumption
    | intro _
    | (extract_lets +onlyGivenNames v; refine Steady.cut (v := v) ?_ (fun _ => ?_); rotate_left; clear_value v; revert v; intros; rotate_right; unfold v; clear v)
    | (extract_lets +onlyGivenNames v; clear_value v; revert v; intros)
    | with_reducible apply State.setReg_steady
    | with_reducible refine Steady.foldState (fun _ _ _ => ?_) ?_
    | with_reducible refine Steady.foldl (fun _ _ _ => ?_) _ ?_
    | with_reducible refine Steady.choice ?_ ?_
    | split
    | with_reducible apply Steady.upd

theorem State.makeResident_steady {a s : State} (c n : Nat) (hk : Steady a s) : Steady a (State.makeResident s c n).1 := by
  induction n generalizing s with
  | zero => exact hk
  | succ n ih =>
    unfold State.makeResident
    split
    · exact State.loadCtx_steady _ _ _ _ hk
    · split
      · exact ih (State.evict_steady _ hk)
      · exact hk

theorem State.ensureResident_steady {a s : State} (c : Nat) (hk : Steady a s) : Steady a (State.ensureResident s c).1 := by
  unfold State.ensureResident
  split
  · exact hk
  · exact State.makeResident_steady _ _ (State.bump_steady _ _ _ _ hk)

theorem State.enterRing_steady {a : State} {s : State} (n : Nat) (k : Nat) (i : Nat) (hk : Steady a s) : Steady a (State.enterRing s n k i) := by
  unfold State.enterRing
  repeat' first
    | with_reducible assumption
    | intro _
    | (extract_lets +onlyGivenNames v; refine Steady.cut (v := v) ?_ (fun _ => ?_); rotate_left; clear_value v; revert v; intros; rotate_right; unfold v; clear v)
    | (extract_lets +onlyGivenNames v; clear_value v; revert v; intros)
    | with_reducible apply State.setReg_steady
    | with_reducible apply State.reply_steady
    | with_reducible refine Steady.foldState (fun _ _ _ => ?_) ?_
    | with_reducible refine Steady.foldl (fun _ _ _ => ?_) _ ?_
    | with_reducible refine Steady.choice ?_ ?_
    | split
    | with_reducible apply Steady.upd

theorem State.declareRing_steady {a s t : State} {n c : Nat} (e : State.declareRing s n c = some t) (hk : Steady a s) : Steady a t := by
  have hr := State.ensureResident_steady c hk
  unfold State.declareRing at e
  split at e
  · cases e
  · rename_i u q
    rw [q] at hr
    split at e
    · cases e; exact State.enterRing_steady _ _ _ hr
    · cases e; exact State.outcome_steady _ _ _ hr

theorem State.defineRegion_steady {a : State} {s : State} (n : Nat) (d : RgnDef) (hk : Steady a s) : Steady a (State.defineRegion s n d) := by
  unfold State.defineRegion
  repeat' first
    | with_reducible assumption
    | intro _
    | (extract_lets +onlyGivenNames v; refine Steady.cut (v := v) ?_ (fun _ => ?_); rotate_left; clear_value v; revert v; intros; rotate_right; unfold v; clear v)
    | (extract_lets +onlyGivenNames v; clear_value v; revert v; intros)
    | with_reducible apply State.setReg_steady
    | with_reducible refine Steady.foldState (fun _ _ _ => ?_) ?_
    | with_reducible refine Steady.foldl (fun _ _ _ => ?_) _ ?_
    | with_reducible refine Steady.choice ?_ ?_
    | split
    | with_reducible apply Steady.upd

theorem State.deleteRegion_steady {a : State} {s : State} (n : Nat) (hk : Steady a s) : Steady a (State.deleteRegion s n) := by
  unfold State.deleteRegion
  repeat' first
    | with_reducible assumption
    | intro _
    | (extract_lets +onlyGivenNames v; refine Steady.cut (v := v) ?_ (fun _ => ?_); rotate_left; clear_value v; revert v; intros; rotate_right; unfold v; clear v)
    | (extract_lets +onlyGivenNames v; clear_value v; revert v; intros)
    | with_reducible apply State.setFld_steady
    | with_reducible refine Steady.foldState (fun _ _ _ => ?_) ?_
    | with_reducible refine Steady.foldl (fun _ _ _ => ?_) _ ?_
    | with_reducible refine Steady.choice ?_ ?_
    | split
    | with_reducible apply Steady.upd

theorem State.deliverStep_steady {a : State} {s : State} (p : Nat) (k : Nat) (gate : Nat) (r : Req) (hk : Steady a s) : Steady a (State.deliverStep s p k gate r) := by
  unfold State.deliverStep
  repeat' first
    | with_reducible assumption
    | intro _
    | (extract_lets +onlyGivenNames v; refine Steady.cut (v := v) ?_ (fun _ => ?_); rotate_left; clear_value v; revert v; intros; rotate_right; unfold v; clear v)
    | (extract_lets +onlyGivenNames v; clear_value v; revert v; intros)
    | with_reducible apply State.observe_steady
    | with_reducible apply State.modReq_steady
    | with_reducible apply State.modPort_steady
    | with_reducible refine Steady.foldState (fun _ _ _ => ?_) ?_
    | with_reducible refine Steady.foldl (fun _ _ _ => ?_) _ ?_
    | with_reducible refine Steady.choice ?_ ?_
    | split
    | with_reducible apply Steady.upd

theorem State.dropBatches_steady {a : State} {s : State} (w : Nat) (hk : Steady a s) : Steady a (State.dropBatches s w) := by
  unfold State.dropBatches
  repeat' first
    | with_reducible assumption
    | intro _
    | (extract_lets +onlyGivenNames v; refine Steady.cut (v := v) ?_ (fun _ => ?_); rotate_left; clear_value v; revert v; intros; rotate_right; unfold v; clear v)
    | (extract_lets +onlyGivenNames v; clear_value v; revert v; intros)
    | with_reducible apply State.refusePkt_steady
    | with_reducible apply State.freeBatch_steady
    | with_reducible refine Steady.foldState (fun _ _ _ => ?_) ?_
    | with_reducible refine Steady.foldl (fun _ _ _ => ?_) _ ?_
    | with_reducible refine Steady.choice ?_ ?_
    | split
    | with_reducible apply Steady.upd

theorem State.dropControl_steady {a : State} {s : State} (h : Pkt) (hk : Steady a s) : Steady a (State.dropControl s h) := by
  unfold State.dropControl
  repeat' first
    | with_reducible assumption
    | intro _
    | (extract_lets +onlyGivenNames v; refine Steady.cut (v := v) ?_ (fun _ => ?_); rotate_left; clear_value v; revert v; intros; rotate_right; unfold v; clear v)
    | (extract_lets +onlyGivenNames v; clear_value v; revert v; intros)
    | with_reducible apply State.dropAwait_steady
    | with_reducible refine Steady.foldState (fun _ _ _ => ?_) ?_
    | with_reducible refine Steady.foldl (fun _ _ _ => ?_) _ ?_
    | with_reducible refine Steady.choice ?_ ?_
    | split
    | with_reducible apply Steady.upd

theorem State.testSpares_steady {a : State} {s : State} (tests : List SpareTest) (sl : Nat) (hk : Steady a s) : Steady a (State.testSpares s tests sl) := by
  unfold State.testSpares
  repeat' first
    | with_reducible assumption
    | intro _
    | (extract_lets +onlyGivenNames v; refine Steady.cut (v := v) ?_ (fun _ => ?_); rotate_left; clear_value v; revert v; intros; rotate_right; unfold v; clear v)
    | (extract_lets +onlyGivenNames v; clear_value v; revert v; intros)
    | with_reducible apply State.testSpare_steady
    | with_reducible refine Steady.foldState (fun _ _ _ => ?_) ?_
    | with_reducible refine Steady.foldl (fun _ _ _ => ?_) _ ?_
    | with_reducible refine Steady.choice ?_ ?_
    | split
    | with_reducible apply Steady.upd

theorem State.recalibrate_steady {a : State} {s : State} (sl : Nat) (trims : List Nat) (hk : Steady a s) : Steady a (State.recalibrate s sl trims) := by
  unfold State.recalibrate
  repeat' first
    | with_reducible assumption
    | intro _
    | (extract_lets +onlyGivenNames v; refine Steady.cut (v := v) ?_ (fun _ => ?_); rotate_left; clear_value v; revert v; intros; rotate_right; unfold v; clear v)
    | (extract_lets +onlyGivenNames v; clear_value v; revert v; intros)
    | with_reducible apply State.setFld_steady
    | with_reducible apply State.arrayFault_steady
    | with_reducible apply State.keepWrite_steady
    | with_reducible refine Steady.foldState (fun _ _ _ => ?_) ?_
    | with_reducible refine Steady.foldl (fun _ _ _ => ?_) _ ?_
    | with_reducible refine Steady.choice ?_ ?_
    | split
    | with_reducible apply Steady.upd

theorem State.freezeSlice_steady {a : State} {s : State} (sl : Nat) (on : Bool) (hk : Steady a s) : Steady a (State.freezeSlice s sl on) := by
  unfold State.freezeSlice
  repeat' first
    | with_reducible assumption
    | intro _
    | (extract_lets +onlyGivenNames v; refine Steady.cut (v := v) ?_ (fun _ => ?_); rotate_left; clear_value v; revert v; intros; rotate_right; unfold v; clear v)
    | (extract_lets +onlyGivenNames v; clear_value v; revert v; intros)
    | with_reducible apply State.setFld_steady
    | with_reducible refine Steady.foldState (fun _ _ _ => ?_) ?_
    | with_reducible refine Steady.foldl (fun _ _ _ => ?_) _ ?_
    | with_reducible refine Steady.choice ?_ ?_
    | split
    | with_reducible apply Steady.upd

theorem State.endRecovery_steady {a : State} {s : State} (sl : Nat) (r : Recov) (trims : List Nat) (tests : List SpareTest) (hk : Steady a s) : Steady a (State.endRecovery s sl r trims tests) := by
  unfold State.endRecovery
  repeat' first
    | with_reducible assumption
    | intro _
    | (extract_lets +onlyGivenNames v; refine Steady.cut (v := v) ?_ (fun _ => ?_); rotate_left; clear_value v; revert v; intros; rotate_right; unfold v; clear v)
    | (extract_lets +onlyGivenNames v; clear_value v; revert v; intros)
    | with_reducible apply State.testSpares_steady
    | with_reducible apply State.recalibrate_steady
    | with_reducible apply State.modGroup_steady
    | with_reducible apply State.modSlice_steady
    | with_reducible apply State.setFld_steady
    | with_reducible apply State.bump_steady
    | with_reducible apply State.freezeSlice_steady
    | with_reducible apply State.outcome_steady
    | with_reducible refine Steady.foldState (fun _ _ _ => ?_) ?_
    | with_reducible refine Steady.foldl (fun _ _ _ => ?_) _ ?_
    | with_reducible refine Steady.choice ?_ ?_
    | split
    | with_reducible apply Steady.upd

theorem State.eraseKeep_steady {a : State} {s : State} (parts : Nat) (hk : Steady a s) : Steady a (State.eraseKeep s parts) := by
  unfold State.eraseKeep
  repeat' first
    | with_reducible assumption
    | intro _
    | (extract_lets +onlyGivenNames v; refine Steady.cut (v := v) ?_ (fun _ => ?_); rotate_left; clear_value v; revert v; intros; rotate_right; unfold v; clear v)
    | (extract_lets +onlyGivenNames v; clear_value v; revert v; intros)
    | with_reducible apply State.keepWrite_steady
    | with_reducible refine Steady.foldState (fun _ _ _ => ?_) ?_
    | with_reducible refine Steady.foldl (fun _ _ _ => ?_) _ ?_
    | with_reducible refine Steady.choice ?_ ?_
    | split
    | with_reducible apply Steady.upd

theorem State.failAccess_steady {a : State} {s : State} (a1 : Access) (hk : Steady a s) : Steady a (State.failAccess s a1) := by
  unfold State.failAccess
  repeat' first
    | with_reducible assumption
    | intro _
    | (extract_lets +onlyGivenNames v; refine Steady.cut (v := v) ?_ (fun _ => ?_); rotate_left; clear_value v; revert v; intros; rotate_right; unfold v; clear v)
    | (extract_lets +onlyGivenNames v; clear_value v; revert v; intros)
    | with_reducible apply State.deliver_steady
    | with_reducible refine Steady.foldState (fun _ _ _ => ?_) ?_
    | with_reducible refine Steady.foldl (fun _ _ _ => ?_) _ ?_
    | with_reducible refine Steady.choice ?_ ?_
    | split
    | with_reducible apply Steady.upd

theorem State.failSlice_steady {a : State} {s : State} (sl : Nat) (hk : Steady a s) : Steady a (State.failSlice s sl) := by
  unfold State.failSlice
  repeat' first
    | with_reducible assumption
    | intro _
    | (extract_lets +onlyGivenNames v; refine Steady.cut (v := v) ?_ (fun _ => ?_); rotate_left; clear_value v; revert v; intros; rotate_right; unfold v; clear v)
    | (extract_lets +onlyGivenNames v; clear_value v; revert v; intros)
    | with_reducible apply State.failAccess_steady
    | with_reducible apply State.modGroup_steady
    | with_reducible refine Steady.foldState (fun _ _ _ => ?_) ?_
    | with_reducible refine Steady.foldl (fun _ _ _ => ?_) _ ?_
    | with_reducible refine Steady.choice ?_ ?_
    | split
    | with_reducible apply Steady.upd

theorem State.startRecovery_steady {a : State} {s : State} (sl : Nat) (recal : Bool) (cmd : Option Nat) (hk : Steady a s) : Steady a (State.startRecovery s sl recal cmd) := by
  unfold State.startRecovery
  repeat' first
    | with_reducible assumption
    | intro _
    | (extract_lets +onlyGivenNames v; refine Steady.cut (v := v) ?_ (fun _ => ?_); rotate_left; clear_value v; revert v; intros; rotate_right; unfold v; clear v)
    | (extract_lets +onlyGivenNames v; clear_value v; revert v; intros)
    | with_reducible apply State.modSlice_steady
    | with_reducible apply State.setBit_steady
    | with_reducible refine Steady.foldState (fun _ _ _ => ?_) ?_
    | with_reducible refine Steady.foldl (fun _ _ _ => ?_) _ ?_
    | with_reducible refine Steady.choice ?_ ?_
    | split
    | with_reducible apply Steady.upd

theorem State.faultRecovery_steady {a : State} {s : State} (sl : Nat) (hk : Steady a s) : Steady a (State.faultRecovery s sl) := by
  unfold State.faultRecovery
  repeat' first
    | with_reducible assumption
    | intro _
    | (extract_lets +onlyGivenNames v; refine Steady.cut (v := v) ?_ (fun _ => ?_); rotate_left; clear_value v; revert v; intros; rotate_right; unfold v; clear v)
    | (extract_lets +onlyGivenNames v; clear_value v; revert v; intros)
    | with_reducible apply State.modSlice_steady
    | with_reducible apply State.setBit_steady
    | with_reducible apply State.startRecovery_steady
    | with_reducible refine Steady.foldState (fun _ _ _ => ?_) ?_
    | with_reducible refine Steady.foldl (fun _ _ _ => ?_) _ ?_
    | with_reducible refine Steady.choice ?_ ?_
    | split
    | with_reducible apply Steady.upd

theorem State.resetChuck_steady {a : State} {s : State} (p : Nat) (hk : Steady a s) : Steady a (State.resetChuck s p) := by
  unfold State.resetChuck
  repeat' first
    | with_reducible assumption
    | intro _
    | (extract_lets +onlyGivenNames v; refine Steady.cut (v := v) ?_ (fun _ => ?_); rotate_left; clear_value v; revert v; intros; rotate_right; unfold v; clear v)
    | (extract_lets +onlyGivenNames v; clear_value v; revert v; intros)
    | with_reducible apply State.setPort_steady
    | with_reducible apply State.setLink_steady
    | with_reducible apply State.setFld_steady
    | with_reducible refine Steady.foldState (fun _ _ _ => ?_) ?_
    | with_reducible refine Steady.foldl (fun _ _ _ => ?_) _ ?_
    | with_reducible refine Steady.choice ?_ ?_
    | split
    | with_reducible apply Steady.upd

theorem State.finishPartition_steady {a : State} {s : State} (n : Nat) (p : Nat) (hk : Steady a s) : Steady a (State.finishPartition s n p) := by
  unfold State.finishPartition
  repeat' first
    | with_reducible assumption
    | intro _
    | (extract_lets +onlyGivenNames v; refine Steady.cut (v := v) ?_ (fun _ => ?_); rotate_left; clear_value v; revert v; intros; rotate_right; unfold v; clear v)
    | (extract_lets +onlyGivenNames v; clear_value v; revert v; intros)
    | with_reducible apply State.keepFault_steady
    | with_reducible apply State.outcome_steady
    | with_reducible apply State.settleAll_steady
    | with_reducible apply State.resetChuck_steady
    | with_reducible apply State.clearPort_steady
    | with_reducible refine Steady.foldState (fun _ _ _ => ?_) ?_
    | with_reducible refine Steady.foldl (fun _ _ _ => ?_) _ ?_
    | with_reducible refine Steady.choice ?_ ?_
    | split
    | with_reducible apply Steady.upd

theorem State.fenceDone_steady {a : State} {s : State} (p : Nat) (hk : Steady a s) : Steady a (State.fenceDone s p) := by
  unfold State.fenceDone
  repeat' first
    | with_reducible assumption
    | intro _
    | (extract_lets +onlyGivenNames v; refine Steady.cut (v := v) ?_ (fun _ => ?_); rotate_left; clear_value v; revert v; intros; rotate_right; unfold v; clear v)
    | (extract_lets +onlyGivenNames v; clear_value v; revert v; intros)
    | with_reducible apply State.finishPartition_steady
    | with_reducible apply State.outcome_steady
    | with_reducible refine Steady.foldState (fun _ _ _ => ?_) ?_
    | with_reducible refine Steady.foldl (fun _ _ _ => ?_) _ ?_
    | with_reducible refine Steady.choice ?_ ?_
    | split
    | with_reducible apply Steady.upd

theorem State.fetchLine_steady {a : State} (p : Nat) (k : Nat) (d : Nat) (i : Nat) {s : State} (j : Nat) (hk : Steady a s) : Steady a (State.fetchLine p k d i s j) := by
  unfold State.fetchLine
  repeat' first
    | with_reducible assumption
    | intro _
    | (extract_lets +onlyGivenNames v; refine Steady.cut (v := v) ?_ (fun _ => ?_); rotate_left; clear_value v; revert v; intros; rotate_right; unfold v; clear v)
    | (extract_lets +onlyGivenNames v; clear_value v; revert v; intros)
    | with_reducible apply State.modPort_steady
    | with_reducible apply State.sendLine_steady
    | with_reducible refine Steady.foldState (fun _ _ _ => ?_) ?_
    | with_reducible refine Steady.foldl (fun _ _ _ => ?_) _ ?_
    | with_reducible refine Steady.choice ?_ ?_
    | split
    | with_reducible apply Steady.upd

theorem State.fetchRow_steady {a : State} {s : State} (p : Nat) (k : Nat) (d : Nat) (i : Nat) (hk : Steady a s) : Steady a (State.fetchRow s p k d i) := by
  unfold State.fetchRow
  repeat' first
    | with_reducible assumption
    | intro _
    | (extract_lets +onlyGivenNames v; refine Steady.cut (v := v) ?_ (fun _ => ?_); rotate_left; clear_value v; revert v; intros; rotate_right; unfold v; clear v)
    | (extract_lets +onlyGivenNames v; clear_value v; revert v; intros)
    | with_reducible apply State.fetchLine_steady
    | with_reducible refine Steady.foldState (fun _ _ _ => ?_) ?_
    | with_reducible refine Steady.foldl (fun _ _ _ => ?_) _ ?_
    | with_reducible refine Steady.choice ?_ ?_
    | split
    | with_reducible apply Steady.upd

theorem State.finishCopy_steady {a : State} {s : State} (hk : Steady a s) : Steady a (State.finishCopy s) := by
  unfold State.finishCopy
  repeat' first
    | with_reducible assumption
    | intro _
    | (extract_lets +onlyGivenNames v; refine Steady.cut (v := v) ?_ (fun _ => ?_); rotate_left; clear_value v; revert v; intros; rotate_right; unfold v; clear v)
    | (extract_lets +onlyGivenNames v; clear_value v; revert v; intros)
    | with_reducible apply State.finishRedo_steady
    | with_reducible apply State.dropAwait_steady
    | with_reducible refine Steady.foldState (fun _ _ _ => ?_) ?_
    | with_reducible refine Steady.foldl (fun _ _ _ => ?_) _ ?_
    | with_reducible refine Steady.choice ?_ ?_
    | split
    | with_reducible apply Steady.upd

theorem State.undoDefine_steady {a : State} {s : State} (ix : Nat) (hk : Steady a s) : Steady a (State.undoDefine s ix) := by
  unfold State.undoDefine
  repeat' first
    | with_reducible assumption
    | intro _
    | (extract_lets +onlyGivenNames v; refine Steady.cut (v := v) ?_ (fun _ => ?_); rotate_left; clear_value v; revert v; intros; rotate_right; unfold v; clear v)
    | (extract_lets +onlyGivenNames v; clear_value v; revert v; intros)
    | with_reducible apply State.sendControl_steady
    | with_reducible refine Steady.foldState (fun _ _ _ => ?_) ?_
    | with_reducible refine Steady.foldl (fun _ _ _ => ?_) _ ?_
    | with_reducible refine Steady.choice ?_ ?_
    | split
    | with_reducible apply Steady.upd

theorem State.finishDefine_steady {a : State} (n : Nat) (ix : Nat) {s : State} (hk : Steady a s) : Steady a (State.finishDefine n ix s) := by
  unfold State.finishDefine
  repeat' first
    | with_reducible assumption
    | intro _
    | (extract_lets +onlyGivenNames v; refine Steady.cut (v := v) ?_ (fun _ => ?_); rotate_left; clear_value v; revert v; intros; rotate_right; unfold v; clear v)
    | (extract_lets +onlyGivenNames v; clear_value v; revert v; intros)
    | with_reducible apply State.outcome_steady
    | with_reducible apply State.undoDefine_steady
    | with_reducible apply State.defineRegion_steady
    | with_reducible refine Steady.foldState (fun _ _ _ => ?_) ?_
    | with_reducible refine Steady.foldl (fun _ _ _ => ?_) _ ?_
    | with_reducible refine Steady.choice ?_ ?_
    | split
    | with_reducible apply Steady.upd

theorem State.flushVpc_steady {a : State} {s : State} (p : Nat) (hk : Steady a s) : Steady a (State.flushVpc s p) := by
  unfold State.flushVpc
  repeat' first
    | with_reducible assumption
    | intro _
    | (extract_lets +onlyGivenNames v; refine Steady.cut (v := v) ?_ (fun _ => ?_); rotate_left; clear_value v; revert v; intros; rotate_right; unfold v; clear v)
    | (extract_lets +onlyGivenNames v; clear_value v; revert v; intros)
    | with_reducible apply State.modPort_steady
    | with_reducible refine Steady.foldState (fun _ _ _ => ?_) ?_
    | with_reducible refine Steady.foldl (fun _ _ _ => ?_) _ ?_
    | with_reducible refine Steady.choice ?_ ?_
    | split
    | with_reducible apply Steady.upd

theorem State.setBoot_steady {a : State} {s : State} (state : Nat) (reason : Nat) (hk : Steady a s) : Steady a (State.setBoot s state reason) := by
  unfold State.setBoot
  repeat' first
    | with_reducible assumption
    | intro _
    | (extract_lets +onlyGivenNames v; refine Steady.cut (v := v) ?_ (fun _ => ?_); rotate_left; clear_value v; revert v; intros; rotate_right; unfold v; clear v)
    | (extract_lets +onlyGivenNames v; clear_value v; revert v; intros)
    | with_reducible apply State.setFld_steady
    | with_reducible apply State.setBit_steady
    | with_reducible refine Steady.foldState (fun _ _ _ => ?_) ?_
    | with_reducible refine Steady.foldl (fun _ _ _ => ?_) _ ?_
    | with_reducible refine Steady.choice ?_ ?_
    | split
    | with_reducible apply Steady.upd

theorem State.go_steady {a : State} {s : State} (hk : Steady a s) : Steady a (State.go s) := by
  unfold State.go
  repeat' first
    | with_reducible assumption
    | intro _
    | (extract_lets +onlyGivenNames v; refine Steady.cut (v := v) ?_ (fun _ => ?_); rotate_left; clear_value v; revert v; intros; rotate_right; unfold v; clear v)
    | (extract_lets +onlyGivenNames v; clear_value v; revert v; intros)
    | with_reducible apply State.bump_steady
    | with_reducible apply State.setBoot_steady
    | with_reducible refine Steady.foldState (fun _ _ _ => ?_) ?_
    | with_reducible refine Steady.foldl (fun _ _ _ => ?_) _ ?_
    | with_reducible refine Steady.choice ?_ ?_
    | split
    | with_reducible apply Steady.upd

theorem State.keepSent_steady {a : State} {s : State} (w : Sent) (hk : Steady a s) : Steady a (State.keepSent s w) := by
  unfold State.keepSent
  repeat' first
    | with_reducible assumption
    | intro _
    | (extract_lets +onlyGivenNames v; refine Steady.cut (v := v) ?_ (fun _ => ?_); rotate_left; clear_value v; revert v; intros; rotate_right; unfold v; clear v)
    | (extract_lets +onlyGivenNames v; clear_value v; revert v; intros)
    | with_reducible apply State.raise_steady
    | with_reducible refine Steady.foldState (fun _ _ _ => ?_) ?_
    | with_reducible refine Steady.foldl (fun _ _ _ => ?_) _ ?_
    | with_reducible refine Steady.choice ?_ ?_
    | split
    | with_reducible apply Steady.upd

theorem State.handOver_steady {a : State} {s : State} (p : Nat) (r : Req) (hk : Steady a s) : Steady a (State.handOver s p r) := by
  unfold State.handOver
  repeat' first
    | with_reducible assumption
    | intro _
    | (extract_lets +onlyGivenNames v; refine Steady.cut (v := v) ?_ (fun _ => ?_); rotate_left; clear_value v; revert v; intros; rotate_right; unfold v; clear v)
    | (extract_lets +onlyGivenNames v; clear_value v; revert v; intros)
    | with_reducible apply State.keepSent_steady
    | with_reducible refine Steady.foldState (fun _ _ _ => ?_) ?_
    | with_reducible refine Steady.foldl (fun _ _ _ => ?_) _ ?_
    | with_reducible refine Steady.choice ?_ ?_
    | split
    | with_reducible apply Steady.upd

theorem State.stopTest_steady {a : State} {s : State} (sl : Nat) (p : Nat → Bool) (hk : Steady a s) : Steady a (State.stopTest s sl p) := by
  unfold State.stopTest
  repeat' first
    | with_reducible assumption
    | intro _
    | (extract_lets +onlyGivenNames v; refine Steady.cut (v := v) ?_ (fun _ => ?_); rotate_left; clear_value v; revert v; intros; rotate_right; unfold v; clear v)
    | (extract_lets +onlyGivenNames v; clear_value v; revert v; intros)
    | with_reducible apply State.endTest_steady
    | with_reducible refine Steady.foldState (fun _ _ _ => ?_) ?_
    | with_reducible refine Steady.foldl (fun _ _ _ => ?_) _ ?_
    | with_reducible refine Steady.choice ?_ ?_
    | split
    | with_reducible apply Steady.upd

theorem State.holdSlice_steady {a : State} {s : State} (sl : Nat) (hk : Steady a s) : Steady a (State.holdSlice s sl) := by
  unfold State.holdSlice
  repeat' first
    | with_reducible assumption
    | intro _
    | (extract_lets +onlyGivenNames v; refine Steady.cut (v := v) ?_ (fun _ => ?_); rotate_left; clear_value v; revert v; intros; rotate_right; unfold v; clear v)
    | (extract_lets +onlyGivenNames v; clear_value v; revert v; intros)
    | with_reducible apply State.freezeSlice_steady
    | with_reducible apply State.dropEngine_steady
    | with_reducible apply State.stopTest_steady
    | with_reducible apply State.abandonShaving_steady
    | with_reducible apply State.modSlice_steady
    | with_reducible refine Steady.foldState (fun _ _ _ => ?_) ?_
    | with_reducible refine Steady.foldl (fun _ _ _ => ?_) _ ?_
    | with_reducible refine Steady.choice ?_ ?_
    | split
    | with_reducible apply Steady.upd

theorem State.postCommands_steady {a : State} {s : State} (v : Word) (hk : Steady a s) : Steady a (State.postCommands s v) := by
  unfold State.postCommands
  repeat' first
    | with_reducible assumption
    | intro _
    | (extract_lets +onlyGivenNames v; refine Steady.cut (v := v) ?_ (fun _ => ?_); rotate_left; clear_value v; revert v; intros; rotate_right; unfold v; clear v)
    | (extract_lets +onlyGivenNames v; clear_value v; revert v; intros)
    | with_reducible apply State.setFld_steady
    | with_reducible apply State.setBit_steady
    | with_reducible refine Steady.foldState (fun _ _ _ => ?_) ?_
    | with_reducible refine Steady.foldl (fun _ _ _ => ?_) _ ?_
    | with_reducible refine Steady.choice ?_ ?_
    | split
    | with_reducible apply Steady.upd

theorem State.requestSwaps_steady {a : State} {s : State} (mask : Nat) (v : Word) (hk : Steady a s) : Steady a (State.requestSwaps s mask v) := by
  unfold State.requestSwaps
  repeat' first
    | with_reducible assumption
    | intro _
    | (extract_lets +onlyGivenNames v; refine Steady.cut (v := v) ?_ (fun _ => ?_); rotate_left; clear_value v; revert v; intros; rotate_right; unfold v; clear v)
    | (extract_lets +onlyGivenNames v; clear_value v; revert v; intros)
    | with_reducible apply State.setReg_steady
    | with_reducible apply State.modGroup_steady
    | with_reducible refine Steady.foldState (fun _ _ _ => ?_) ?_
    | with_reducible refine Steady.foldl (fun _ _ _ => ?_) _ ?_
    | with_reducible refine Steady.choice ?_ ?_
    | split
    | with_reducible apply Steady.upd

theorem State.writeShadow_steady {a : State} {s : State} (off : Nat) (v : Word) (hk : Steady a s) : Steady a (State.writeShadow s off v) := by
  unfold State.writeShadow
  repeat' first
    | with_reducible assumption
    | intro _
    | (extract_lets +onlyGivenNames v; refine Steady.cut (v := v) ?_ (fun _ => ?_); rotate_left; clear_value v; revert v; intros; rotate_right; unfold v; clear v)
    | (extract_lets +onlyGivenNames v; clear_value v; revert v; intros)
    | with_reducible apply State.setBit_steady
    | with_reducible apply State.setReg_steady
    | with_reducible refine Steady.foldState (fun _ _ _ => ?_) ?_
    | with_reducible refine Steady.foldl (fun _ _ _ => ?_) _ ?_
    | with_reducible refine Steady.choice ?_ ?_
    | split
    | with_reducible apply Steady.upd

theorem State.writeRanks_steady {a : State} {s : State} (v : Word) (hk : Steady a s) : Steady a (State.writeRanks s v) := by
  unfold State.writeRanks
  repeat' first
    | with_reducible assumption
    | intro _
    | (extract_lets +onlyGivenNames v; refine Steady.cut (v := v) ?_ (fun _ => ?_); rotate_left; clear_value v; revert v; intros; rotate_right; unfold v; clear v)
    | (extract_lets +onlyGivenNames v; clear_value v; revert v; intros)
    | with_reducible apply State.rsvd_steady
    | with_reducible apply State.setReg_steady
    | with_reducible refine Steady.foldState (fun _ _ _ => ?_) ?_
    | with_reducible refine Steady.foldl (fun _ _ _ => ?_) _ ?_
    | with_reducible refine Steady.choice ?_ ?_
    | split
    | with_reducible apply Steady.upd

theorem State.writeBtCfg_steady {a : State} {s : State} (mask : Nat) (v : Word) (hk : Steady a s) : Steady a (State.writeBtCfg s mask v) := by
  unfold State.writeBtCfg
  repeat' first
    | with_reducible assumption
    | intro _
    | (extract_lets +onlyGivenNames v; refine Steady.cut (v := v) ?_ (fun _ => ?_); rotate_left; clear_value v; revert v; intros; rotate_right; unfold v; clear v)
    | (extract_lets +onlyGivenNames v; clear_value v; revert v; intros)
    | with_reducible apply State.storeRw_steady
    | with_reducible apply State.abandonShaving_steady
    | with_reducible refine Steady.foldState (fun _ _ _ => ?_) ?_
    | with_reducible refine Steady.foldl (fun _ _ _ => ?_) _ ?_
    | with_reducible refine Steady.choice ?_ ?_
    | split
    | with_reducible apply Steady.upd

theorem State.writeRamp_steady {a : State} {s : State} (p : Nat) (hk : Steady a s) : Steady a (State.writeRamp s p) := by
  unfold State.writeRamp
  repeat' first
    | with_reducible assumption
    | intro _
    | (extract_lets +onlyGivenNames v; refine Steady.cut (v := v) ?_ (fun _ => ?_); rotate_left; clear_value v; revert v; intros; rotate_right; unfold v; clear v)
    | (extract_lets +onlyGivenNames v; clear_value v; revert v; intros)
    | with_reducible apply State.setFld_steady
    | with_reducible refine Steady.foldState (fun _ _ _ => ?_) ?_
    | with_reducible refine Steady.foldl (fun _ _ _ => ?_) _ ?_
    | with_reducible refine Steady.choice ?_ ?_
    | split
    | with_reducible apply Steady.upd

theorem State.hostOwned_steady {a : State} {s : State} (off : Nat) (mask : Nat) (v : Word) (hk : Steady a s) : Steady a (State.hostOwned s off mask v) := by
  unfold State.hostOwned
  repeat' first
    | with_reducible assumption
    | intro _
    | (extract_lets +onlyGivenNames v; refine Steady.cut (v := v) ?_ (fun _ => ?_); rotate_left; clear_value v; revert v; intros; rotate_right; unfold v; clear v)
    | (extract_lets +onlyGivenNames v; clear_value v; revert v; intros)
    | with_reducible apply State.go_steady
    | with_reducible apply State.postCommands_steady
    | with_reducible apply State.requestSwaps_steady
    | with_reducible apply State.writeShadow_steady
    | with_reducible apply State.writeRanks_steady
    | with_reducible apply State.commitView_steady
    | with_reducible apply State.writeBtCfg_steady
    | with_reducible apply State.retarget_steady
    | with_reducible apply State.showAvail_steady
    | with_reducible apply State.storeRw_steady
    | with_reducible apply State.flushVpc_steady
    | with_reducible apply State.writeRamp_steady
    | with_reducible refine Steady.foldState (fun _ _ _ => ?_) ?_
    | with_reducible refine Steady.foldl (fun _ _ _ => ?_) _ ?_
    | with_reducible refine Steady.choice ?_ ?_
    | split
    | with_reducible apply Steady.upd

theorem State.regAccess_steady {a s : State} (act : State → State × Word)
    (hact : ∀ y, Steady a y → Steady a (act y).1) (hk : Steady a s) : Steady a (State.regAccess s act) := by
  unfold State.regAccess
  split
  · exact State.protoErr_steady _ _ hk
  · extract_lets r
    have hr : Steady a r.1 := hact _ (State.modPort_steady _ _ hk)
    clear_value r
    exact State.modPort_steady _ _ (State.drive_steady _ (State.drive_steady _ hr))

theorem State.touch_steady {a : State} {s : State} (hk : Steady a s) : Steady a (State.touch s) := by
  unfold State.touch
  repeat' first
    | with_reducible assumption
    | intro _
    | (extract_lets +onlyGivenNames v; refine Steady.cut (v := v) ?_ (fun _ => ?_); rotate_left; clear_value v; revert v; intros; rotate_right; unfold v; clear v)
    | (extract_lets +onlyGivenNames v; clear_value v; revert v; intros)
    | with_reducible apply State.abandonEntry_steady
    | with_reducible refine Steady.foldState (fun _ _ _ => ?_) ?_
    | with_reducible refine Steady.foldl (fun _ _ _ => ?_) _ ?_
    | with_reducible refine Steady.choice ?_ ?_
    | split
    | with_reducible apply Steady.upd

theorem State.writeReg_steady {a : State} {s : State} (off : Nat) (v : Word) (hk : Steady a s) : Steady a (State.writeReg s off v) := by
  unfold State.writeReg
  repeat' first
    | with_reducible assumption
    | intro _
    | (extract_lets +onlyGivenNames v; refine Steady.cut (v := v) ?_ (fun _ => ?_); rotate_left; clear_value v; revert v; intros; rotate_right; unfold v; clear v)
    | (extract_lets +onlyGivenNames v; clear_value v; revert v; intros)
    | with_reducible apply State.setBit_steady
    | with_reducible apply State.hostOwned_steady
    | with_reducible apply State.clearSticky_steady
    | with_reducible refine Steady.foldState (fun _ _ _ => ?_) ?_
    | with_reducible refine Steady.foldl (fun _ _ _ => ?_) _ ?_
    | with_reducible refine Steady.choice ?_ ?_
    | split
    | with_reducible apply Steady.upd

theorem State.hostWrite_steady {a s : State} (off : Nat) (v : Word) (hk : Steady a s) : Steady a (State.hostWrite s off v) := by
  unfold State.hostWrite
  split
  · exact hk
  · exact State.regAccess_steady _ (fun _ h => State.writeReg_steady _ _ h) (State.touch_steady hk)

theorem State.inbound_steady {a : State} {s : State} (tp : Bool) (h : Pkt) (act : State → State) (hact : ∀ y0, Steady a y0 → Steady a (act y0)) (hk : Steady a s) : Steady a (State.inbound s tp h act) := by
  unfold State.inbound
  repeat' first
    | with_reducible assumption
    | intro _
    | (extract_lets +onlyGivenNames v; refine Steady.cut (v := v) ?_ (fun _ => ?_); rotate_left; clear_value v; revert v; intros; rotate_right; unfold v; clear v)
    | (extract_lets +onlyGivenNames v; clear_value v; revert v; intros)
    | with_reducible apply State.protoErr_steady
    | with_reducible apply State.touch_steady
    | with_reducible apply State.setLink_steady
    | with_reducible apply State.setBit_steady
    | with_reducible apply State.repayLink_steady
    | with_reducible apply hact
    | with_reducible refine Steady.foldState (fun _ _ _ => ?_) ?_
    | with_reducible refine Steady.foldl (fun _ _ _ => ?_) _ ?_
    | with_reducible refine Steady.choice ?_ ?_
    | split
    | with_reducible apply Steady.upd

theorem State.loadAge_steady {a : State} {s : State} (hk : Steady a s) : Steady a (State.loadAge s) := by
  unfold State.loadAge
  repeat' first
    | with_reducible assumption
    | intro _
    | (extract_lets +onlyGivenNames v; refine Steady.cut (v := v) ?_ (fun _ => ?_); rotate_left; clear_value v; revert v; intros; rotate_right; unfold v; clear v)
    | (extract_lets +onlyGivenNames v; clear_value v; revert v; intros)
    | with_reducible apply State.retarget_steady
    | with_reducible apply State.showAvail_steady
    | with_reducible apply State.setReg_steady
    | with_reducible refine Steady.foldState (fun _ _ _ => ?_) ?_
    | with_reducible refine Steady.foldl (fun _ _ _ => ?_) _ ?_
    | with_reducible refine Steady.choice ?_ ?_
    | split
    | with_reducible apply Steady.upd

theorem State.loadTrims_steady {a : State} {s : State} (sl : Nat) (hk : Steady a s) : Steady a (State.loadTrims s sl) := by
  unfold State.loadTrims
  repeat' first
    | with_reducible assumption
    | intro _
    | (extract_lets +onlyGivenNames v; refine Steady.cut (v := v) ?_ (fun _ => ?_); rotate_left; clear_value v; revert v; intros; rotate_right; unfold v; clear v)
    | (extract_lets +onlyGivenNames v; clear_value v; revert v; intros)
    | with_reducible apply State.setFld_steady
    | with_reducible refine Steady.foldState (fun _ _ _ => ?_) ?_
    | with_reducible refine Steady.foldl (fun _ _ _ => ?_) _ ?_
    | with_reducible refine Steady.choice ?_ ?_
    | split
    | with_reducible apply Steady.upd

theorem State.setSpareLb_steady {a : State} {s : State} (sl : Nat) (pos : Nat) (lb : Nat) (hk : Steady a s) : Steady a (State.setSpareLb s sl pos lb) := by
  unfold State.setSpareLb
  repeat' first
    | with_reducible assumption
    | intro _
    | (extract_lets +onlyGivenNames v; refine Steady.cut (v := v) ?_ (fun _ => ?_); rotate_left; clear_value v; revert v; intros; rotate_right; unfold v; clear v)
    | (extract_lets +onlyGivenNames v; clear_value v; revert v; intros)
    | with_reducible apply State.setFld_steady
    | with_reducible refine Steady.foldState (fun _ _ _ => ?_) ?_
    | with_reducible refine Steady.foldl (fun _ _ _ => ?_) _ ?_
    | with_reducible refine Steady.choice ?_ ?_
    | split
    | with_reducible apply Steady.upd

theorem State.loadRemap_steady {a s : State} (sl : Nat) (hk : Steady a s) : Steady a (State.loadRemap s sl) := by
  unfold State.loadRemap
  extract_lets dead sp s1 one
  have h1 : Steady a s1 := Steady.foldState (fun _ _ h => State.setReg_steady _ _ h) hk
  have ho : ∀ x y z u, Steady a u → Steady a (one x y z u) := by
    intro x y z u h
    dsimp only [one]
    split
    · exact State.setFld_steady _ _ _ _ (State.setFld_steady _ _ _ _ (State.setSpareLb_steady _ _ _ (State.setSpare_steady _ _ _ h)))
    · exact State.setSpare_steady _ _ _ h
  exact ho _ _ _ _ (ho _ _ _ _ (State.setReg_steady _ _ (State.setReg_steady _ _ h1)))

theorem State.loadKeep_steady {a : State} {s : State} (hk : Steady a s) : Steady a (State.loadKeep s) := by
  unfold State.loadKeep
  repeat' first
    | with_reducible assumption
    | intro _
    | (extract_lets +onlyGivenNames v; refine Steady.cut (v := v) ?_ (fun _ => ?_); rotate_left; clear_value v; revert v; intros; rotate_right; unfold v; clear v)
    | (extract_lets +onlyGivenNames v; clear_value v; revert v; intros)
    | with_reducible apply State.setReg_steady
    | with_reducible apply State.loadTrims_steady
    | with_reducible apply State.loadRemap_steady
    | with_reducible apply State.clearKeep_steady
    | with_reducible refine Steady.foldState (fun _ _ _ => ?_) ?_
    | with_reducible refine Steady.foldl (fun _ _ _ => ?_) _ ?_
    | with_reducible refine Steady.choice ?_ ?_
    | split
    | with_reducible apply Steady.upd

theorem State.loseSent_steady {a : State} {s : State} (w : Sent) (hk : Steady a s) : Steady a (State.loseSent s w) := by
  unfold State.loseSent
  repeat' first
    | with_reducible assumption
    | intro _
    | (extract_lets +onlyGivenNames v; refine Steady.cut (v := v) ?_ (fun _ => ?_); rotate_left; clear_value v; revert v; intros; rotate_right; unfold v; clear v)
    | (extract_lets +onlyGivenNames v; clear_value v; revert v; intros)
    | with_reducible apply State.setBit_steady
    | with_reducible apply State.answer_steady
    | with_reducible apply State.settle_steady
    | with_reducible apply State.packetAnswered_steady
    | with_reducible refine Steady.foldState (fun _ _ _ => ?_) ?_
    | with_reducible refine Steady.foldl (fun _ _ _ => ?_) _ ?_
    | with_reducible refine Steady.choice ?_ ?_
    | split
    | with_reducible apply Steady.upd

theorem State.loseAllSent_steady {a : State} {s : State} (hk : Steady a s) : Steady a (State.loseAllSent s) := by
  unfold State.loseAllSent
  repeat' first
    | with_reducible assumption
    | intro _
    | (extract_lets +onlyGivenNames v; refine Steady.cut (v := v) ?_ (fun _ => ?_); rotate_left; clear_value v; revert v; intros; rotate_right; unfold v; clear v)
    | (extract_lets +onlyGivenNames v; clear_value v; revert v; intros)
    | with_reducible apply State.setBit_steady
    | with_reducible apply State.loseSent_steady
    | with_reducible refine Steady.foldState (fun _ _ _ => ?_) ?_
    | with_reducible refine Steady.foldl (fun _ _ _ => ?_) _ ?_
    | with_reducible refine Steady.choice ?_ ?_
    | split
    | with_reducible apply Steady.upd

theorem State.loseSlice_steady {a : State} {s : State} (sl : Nat) (hk : Steady a s) : Steady a (State.loseSlice s sl) := by
  unfold State.loseSlice
  repeat' first
    | with_reducible assumption
    | intro _
    | (extract_lets +onlyGivenNames v; refine Steady.cut (v := v) ?_ (fun _ => ?_); rotate_left; clear_value v; revert v; intros; rotate_right; unfold v; clear v)
    | (extract_lets +onlyGivenNames v; clear_value v; revert v; intros)
    | with_reducible apply State.powerOff_steady
    | with_reducible apply State.holdSlice_steady
    | with_reducible apply State.failSlice_steady
    | with_reducible apply State.setBit_steady
    | with_reducible refine Steady.foldState (fun _ _ _ => ?_) ?_
    | with_reducible refine Steady.foldl (fun _ _ _ => ?_) _ ?_
    | with_reducible refine Steady.choice ?_ ?_
    | split
    | with_reducible apply Steady.upd

theorem State.resend_steady {a : State} {s : State} (w : Sent) (hk : Steady a s) : Steady a (State.resend s w) := by
  unfold State.resend
  repeat' first
    | with_reducible assumption
    | intro _
    | (extract_lets +onlyGivenNames v; refine Steady.cut (v := v) ?_ (fun _ => ?_); rotate_left; clear_value v; revert v; intros; rotate_right; unfold v; clear v)
    | (extract_lets +onlyGivenNames v; clear_value v; revert v; intros)
    | with_reducible apply State.bump_steady
    | with_reducible apply State.arrivePkt_steady
    | with_reducible apply State.send_steady
    | with_reducible refine Steady.foldState (fun _ _ _ => ?_) ?_
    | with_reducible refine Steady.foldl (fun _ _ _ => ?_) _ ?_
    | with_reducible refine Steady.choice ?_ ?_
    | split
    | with_reducible apply Steady.upd

theorem State.lostRp_steady {a : State} {s : State} (h : Pkt) (hk : Steady a s) : Steady a (State.lostRp s h) := by
  unfold State.lostRp
  repeat' first
    | with_reducible assumption
    | intro _
    | (extract_lets +onlyGivenNames v; refine Steady.cut (v := v) ?_ (fun _ => ?_); rotate_left; clear_value v; revert v; intros; rotate_right; unfold v; clear v)
    | (extract_lets +onlyGivenNames v; clear_value v; revert v; intros)
    | with_reducible apply State.send_steady
    | with_reducible apply State.resend_steady
    | with_reducible refine Steady.foldState (fun _ _ _ => ?_) ?_
    | with_reducible refine Steady.foldl (fun _ _ _ => ?_) _ ?_
    | with_reducible refine Steady.choice ?_ ?_
    | split
    | with_reducible apply Steady.upd

theorem State.lostTp_steady {a s : State} (h : Pkt) (hk : Steady a s) : Steady a (State.lostTp s h) := by
  unfold State.lostTp
  extract_lets t again
  have ha : ∀ u, Steady a u → Steady a (again u) := fun _ h => State.bump_steady _ _ _ _ h
  clear_value again t
  split
  · exact State.send_steady _ _ _ (ha _ hk)
  · split
    · split
      · exact State.send_steady _ _ _ (ha _ hk)
      · exact hk
    · split
      · split
        · split
          · exact State.send_steady _ _ _ (ha _ hk)
          · exact hk
        · exact hk
      · split
        · exact State.sendLine_steady _ (ha _ hk)
        · exact hk

theorem State.mergeChunk_steady {a : State} {s : State} (c : Nat) (data : List Byte) (hk : Steady a s) : Steady a (State.mergeChunk s c data) := by
  unfold State.mergeChunk
  repeat' first
    | with_reducible assumption
    | intro _
    | (extract_lets +onlyGivenNames v; refine Steady.cut (v := v) ?_ (fun _ => ?_); rotate_left; clear_value v; revert v; intros; rotate_right; unfold v; clear v)
    | (extract_lets +onlyGivenNames v; clear_value v; revert v; intros)
    | with_reducible refine Steady.foldState (fun _ _ _ => ?_) ?_
    | with_reducible refine Steady.foldl (fun _ _ _ => ?_) _ ?_
    | with_reducible refine Steady.choice ?_ ?_
    | split
    | with_reducible apply Steady.upd

theorem State.noteNoSpare_steady {a : State} {s : State} (lb : Nat) (hk : Steady a s) : Steady a (State.noteNoSpare s lb) := by
  unfold State.noteNoSpare
  repeat' first
    | with_reducible assumption
    | intro _
    | (extract_lets +onlyGivenNames v; refine Steady.cut (v := v) ?_ (fun _ => ?_); rotate_left; clear_value v; revert v; intros; rotate_right; unfold v; clear v)
    | (extract_lets +onlyGivenNames v; clear_value v; revert v; intros)
    | with_reducible apply State.setBit_steady
    | with_reducible apply State.finding_steady
    | with_reducible refine Steady.foldState (fun _ _ _ => ?_) ?_
    | with_reducible refine Steady.foldl (fun _ _ _ => ?_) _ ?_
    | with_reducible refine Steady.choice ?_ ?_
    | split
    | with_reducible apply Steady.upd

theorem State.openWindow_steady {a : State} {s : State} (n : Nat) (w : Nat) (ctx : Nat) (rgn : Nat) (hk : Steady a s) : Steady a (State.openWindow s n w ctx rgn) := by
  unfold State.openWindow
  repeat' first
    | with_reducible assumption
    | intro _
    | (extract_lets +onlyGivenNames v; refine Steady.cut (v := v) ?_ (fun _ => ?_); rotate_left; clear_value v; revert v; intros; rotate_right; unfold v; clear v)
    | (extract_lets +onlyGivenNames v; clear_value v; revert v; intros)
    | with_reducible apply State.setReg_steady
    | with_reducible apply State.reply_steady
    | with_reducible apply State.holdRgn_steady
    | with_reducible refine Steady.foldState (fun _ _ _ => ?_) ?_
    | with_reducible refine Steady.foldl (fun _ _ _ => ?_) _ ?_
    | with_reducible refine Steady.choice ?_ ?_
    | split
    | with_reducible apply Steady.upd

theorem State.prefetch_steady {a : State} {s : State} (p : Nat) (k : Nat) (x3 : Nat) (hk : Steady a s) : Steady a (State.prefetch s p k x3) := by
  induction x3 generalizing s p k with
  | zero => exact hk
  | succ n ih =>
    unfold State.prefetch
    repeat' first
      | with_reducible assumption
      | intro _
      | (extract_lets +onlyGivenNames v; refine Steady.cut (v := v) ?_ (fun _ => ?_); rotate_left; clear_value v; revert v; intros; rotate_right; unfold v; clear v)
      | (extract_lets +onlyGivenNames v; clear_value v; revert v; intros)
      | with_reducible apply State.fetchRow_steady
      | with_reducible apply State.modPort_steady
      | with_reducible apply ih
      | with_reducible refine Steady.foldState (fun _ _ _ => ?_) ?_
      | with_reducible refine Steady.foldl (fun _ _ _ => ?_) _ ?_
      | with_reducible refine Steady.choice ?_ ?_
      | split
      | with_reducible apply Steady.upd

theorem State.ready_steady {a : State} {s : State} (w : Waiter) (info : Word) (hk : Steady a s) : Steady a (State.ready s w info) := by
  unfold State.ready
  repeat' first
    | with_reducible assumption
    | intro _
    | (extract_lets +onlyGivenNames v; refine Steady.cut (v := v) ?_ (fun _ => ?_); rotate_left; clear_value v; revert v; intros; rotate_right; unfold v; clear v)
    | (extract_lets +onlyGivenNames v; clear_value v; revert v; intros)
    | with_reducible apply State.freeWait_steady
    | with_reducible apply State.setBit_steady
    | with_reducible apply State.modPort_steady
    | with_reducible refine Steady.foldState (fun _ _ _ => ?_) ?_
    | with_reducible refine Steady.foldl (fun _ _ _ => ?_) _ ?_
    | with_reducible refine Steady.choice ?_ ?_
    | split
    | with_reducible apply Steady.upd

theorem State.takeHeader_steady {a : State} {s : State} (p : Nat) (h : Hdr) (hk : Steady a s) : Steady a (State.takeHeader s p h) := by
  unfold State.takeHeader
  repeat' first
    | with_reducible assumption
    | intro _
    | (extract_lets +onlyGivenNames v; refine Steady.cut (v := v) ?_ (fun _ => ?_); rotate_left; clear_value v; revert v; intros; rotate_right; unfold v; clear v)
    | (extract_lets +onlyGivenNames v; clear_value v; revert v; intros)
    | with_reducible apply State.modPort_steady
    | with_reducible apply State.fresh_steady
    | with_reducible apply State.takeIn_steady
    | with_reducible refine Steady.foldState (fun _ _ _ => ?_) ?_
    | with_reducible refine Steady.foldl (fun _ _ _ => ?_) _ ?_
    | with_reducible refine Steady.choice ?_ ?_
    | split
    | with_reducible apply Steady.upd

theorem State.receive_steady {a : State} {s : State} (p : Nat) (h : Hdr) (hk : Steady a s) : Steady a (State.receive s p h) := by
  unfold State.receive
  repeat' first
    | with_reducible assumption
    | intro _
    | (extract_lets +onlyGivenNames v; refine Steady.cut (v := v) ?_ (fun _ => ?_); rotate_left; clear_value v; revert v; intros; rotate_right; unfold v; clear v)
    | (extract_lets +onlyGivenNames v; clear_value v; revert v; intros)
    | with_reducible apply State.protoErr_steady
    | with_reducible apply State.settle_steady
    | with_reducible apply State.takeHeader_steady
    | with_reducible apply State.touch_steady
    | with_reducible refine Steady.foldState (fun _ _ _ => ?_) ?_
    | with_reducible refine Steady.foldl (fun _ _ _ => ?_) _ ?_
    | with_reducible refine Steady.choice ?_ ?_
    | split
    | with_reducible apply Steady.upd

theorem State.regionAnswer_steady {a : State} {s : State} (h : Pkt) (msg : Nat) (act : Nat → Nat → State → State) (hact : ∀ y0 y1 y2, Steady a y2 → Steady a (act y0 y1 y2)) (hk : Steady a s) : Steady a (State.regionAnswer s h msg act) := by
  unfold State.regionAnswer
  repeat' first
    | with_reducible assumption
    | intro _
    | (extract_lets +onlyGivenNames v; refine Steady.cut (v := v) ?_ (fun _ => ?_); rotate_left; clear_value v; revert v; intros; rotate_right; unfold v; clear v)
    | (extract_lets +onlyGivenNames v; clear_value v; revert v; intros)
    | with_reducible apply State.dropControl_steady
    | with_reducible apply State.setFld_steady
    | with_reducible apply State.outcome_steady
    | with_reducible apply hact
    | with_reducible refine Steady.foldState (fun _ _ _ => ?_) ?_
    | with_reducible refine Steady.foldl (fun _ _ _ => ?_) _ ?_
    | with_reducible refine Steady.choice ?_ ?_
    | split
    | with_reducible apply Steady.upd

theorem State.releaseWait_steady {a : State} {s : State} (w : Waiter) (hk : Steady a s) : Steady a (State.releaseWait s w) := by
  unfold State.releaseWait
  repeat' first
    | with_reducible assumption
    | intro _
    | (extract_lets +onlyGivenNames v; refine Steady.cut (v := v) ?_ (fun _ => ?_); rotate_left; clear_value v; revert v; intros; rotate_right; unfold v; clear v)
    | (extract_lets +onlyGivenNames v; clear_value v; revert v; intros)
    | with_reducible apply State.observe_steady
    | with_reducible apply State.moved_steady
    | with_reducible apply State.ready_steady
    | with_reducible apply State.freeWait_steady
    | with_reducible refine Steady.foldState (fun _ _ _ => ?_) ?_
    | with_reducible refine Steady.foldl (fun _ _ _ => ?_) _ ?_
    | with_reducible refine Steady.choice ?_ ?_
    | split
    | with_reducible apply Steady.upd

theorem State.removeRing_steady {a : State} {s : State} (n : Nat) (c : Nat) (hk : Steady a s) : Steady a (State.removeRing s n c) := by
  unfold State.removeRing
  repeat' first
    | with_reducible assumption
    | intro _
    | (extract_lets +onlyGivenNames v; refine Steady.cut (v := v) ?_ (fun _ => ?_); rotate_left; clear_value v; revert v; intros; rotate_right; unfold v; clear v)
    | (extract_lets +onlyGivenNames v; clear_value v; revert v; intros)
    | with_reducible apply State.reply_steady
    | with_reducible apply State.setReg_steady
    | with_reducible apply State.outcome_steady
    | with_reducible refine Steady.foldState (fun _ _ _ => ?_) ?_
    | with_reducible refine Steady.foldl (fun _ _ _ => ?_) _ ?_
    | with_reducible refine Steady.choice ?_ ?_
    | split
    | with_reducible apply Steady.upd

theorem State.replan_steady {a : State} (first : Bool) {s : State} (d : Nat) (hk : Steady a s) : Steady a (State.replan first s d) := by
  unfold State.replan
  repeat' first
    | with_reducible assumption
    | intro _
    | (extract_lets +onlyGivenNames v; refine Steady.cut (v := v) ?_ (fun _ => ?_); rotate_left; clear_value v; revert v; intros; rotate_right; unfold v; clear v)
    | (extract_lets +onlyGivenNames v; clear_value v; revert v; intros)
    | with_reducible apply State.keepWrite_steady
    | with_reducible apply State.setBit_steady
    | with_reducible apply State.setFld_steady
    | with_reducible refine Steady.foldState (fun _ _ _ => ?_) ?_
    | with_reducible refine Steady.foldl (fun _ _ _ => ?_) _ ?_
    | with_reducible refine Steady.choice ?_ ?_
    | split
    | with_reducible apply Steady.upd

theorem State.startMigration_steady {a : State} {s : State} (lb : Nat) (spare : Nat) (cmd : Option Nat) (hk : Steady a s) : Steady a (State.startMigration s lb spare cmd) := by
  unfold State.startMigration
  repeat' first
    | with_reducible assumption
    | intro _
    | (extract_lets +onlyGivenNames v; refine Steady.cut (v := v) ?_ (fun _ => ?_); rotate_left; clear_value v; revert v; intros; rotate_right; unfold v; clear v)
    | (extract_lets +onlyGivenNames v; clear_value v; revert v; intros)
    | with_reducible apply State.abandonShaving_steady
    | with_reducible apply State.stopTest_steady
    | with_reducible apply State.setFld_steady
    | with_reducible apply State.setSpareLb_steady
    | with_reducible apply State.setSpare_steady
    | with_reducible apply State.modSlice_steady
    | with_reducible refine Steady.foldState (fun _ _ _ => ?_) ?_
    | with_reducible refine Steady.foldl (fun _ _ _ => ?_) _ ?_
    | with_reducible refine Steady.choice ?_ ?_
    | split
    | with_reducible apply Steady.upd

theorem State.retire2_steady {a : State} {s : State} (lb : Nat) (cause : RetireCause) (hk : Steady a s) : Steady a (State.retire2 s lb cause) := by
  unfold State.retire2
  repeat' first
    | with_reducible assumption
    | intro _
    | (extract_lets +onlyGivenNames v; refine Steady.cut (v := v) ?_ (fun _ => ?_); rotate_left; clear_value v; revert v; intros; rotate_right; unfold v; clear v)
    | (extract_lets +onlyGivenNames v; clear_value v; revert v; intros)
    | with_reducible apply State.startMigration_steady
    | with_reducible apply State.modSlice_steady
    | with_reducible apply State.makeDead_steady
    | with_reducible apply State.noteNoSpare_steady
    | with_reducible refine Steady.foldState (fun _ _ _ => ?_) ?_
    | with_reducible refine Steady.foldl (fun _ _ _ => ?_) _ ?_
    | with_reducible refine Steady.choice ?_ ?_
    | split
    | with_reducible apply Steady.upd

theorem State.runCmd_steady {a : State} {s : State} (opc : Nat) (n : Nat) (body : State → State) (hbody : ∀ y0, Steady a y0 → Steady a (body y0)) (hk : Steady a s) : Steady a (State.runCmd s opc n body) := by
  unfold State.runCmd
  repeat' first
    | with_reducible assumption
    | intro _
    | (extract_lets +onlyGivenNames v; refine Steady.cut (v := v) ?_ (fun _ => ?_); rotate_left; clear_value v; revert v; intros; rotate_right; unfold v; clear v)
    | (extract_lets +onlyGivenNames v; clear_value v; revert v; intros)
    | with_reducible apply State.reply_steady
    | with_reducible apply hbody
    | with_reducible refine Steady.foldState (fun _ _ _ => ?_) ?_
    | with_reducible refine Steady.foldl (fun _ _ _ => ?_) _ ?_
    | with_reducible refine Steady.choice ?_ ?_
    | split
    | with_reducible apply Steady.upd

theorem State.sendNext_steady {a s out : State} {p : Nat} {r : Req} (e : State.sendNext s p r = some out) (hk : Steady a s) : Steady a out := by
  unfold State.sendNext at e
  try dsimp only at e
  repeat' split at e
  all_goals try cases e
  repeat' first
    | with_reducible assumption
    | intro _
    | (extract_lets +onlyGivenNames v; refine Steady.cut (v := v) ?_ (fun _ => ?_); rotate_left; clear_value v; revert v; intros; rotate_right; unfold v; clear v)
    | (extract_lets +onlyGivenNames v; clear_value v; revert v; intros)
    | with_reducible apply State.send_steady
    | with_reducible apply State.modReq_steady
    | with_reducible apply State.setRec_steady
    | with_reducible apply State.keepSent_steady
    | with_reducible refine Steady.foldState (fun _ _ _ => ?_) ?_
    | with_reducible refine Steady.foldl (fun _ _ _ => ?_) _ ?_
    | with_reducible refine Steady.choice ?_ ?_
    | split
    | with_reducible apply Steady.upd

theorem State.sendAll_steady {a : State} {s : State} (p : Nat) (uid : Nat) (x3 : Nat) (hk : Steady a s) : Steady a (State.sendAll s p uid x3) := by
  induction x3 generalizing s p uid with
  | zero => exact hk
  | succ n ih =>
    unfold State.sendAll
    repeat' first
      | with_reducible assumption
      | intro _
      | (extract_lets +onlyGivenNames v; refine Steady.cut (v := v) ?_ (fun _ => ?_); rotate_left; clear_value v; revert v; intros; rotate_right; unfold v; clear v)
      | (extract_lets +onlyGivenNames v; clear_value v; revert v; intros)
      | refine State.sendNext_steady (by assumption) ?_
      | with_reducible apply ih
      | refine Steady.getD (fun _ _ => ?_) ?_
      | with_reducible refine Steady.foldState (fun _ _ _ => ?_) ?_
      | with_reducible refine Steady.foldl (fun _ _ _ => ?_) _ ?_
      | with_reducible refine Steady.choice ?_ ?_
      | split
      | with_reducible apply Steady.upd

theorem State.sendNextMirror_steady {a : State} {s : State} (hk : Steady a s) : Steady a (State.sendNextMirror s) := by
  unfold State.sendNextMirror
  repeat' first
    | with_reducible assumption
    | intro _
    | (extract_lets +onlyGivenNames v; refine Steady.cut (v := v) ?_ (fun _ => ?_); rotate_left; clear_value v; revert v; intros; rotate_right; unfold v; clear v)
    | (extract_lets +onlyGivenNames v; clear_value v; revert v; intros)
    | with_reducible apply State.sendHeld_steady
    | with_reducible refine Steady.foldState (fun _ _ _ => ?_) ?_
    | with_reducible refine Steady.foldl (fun _ _ _ => ?_) _ ?_
    | with_reducible refine Steady.choice ?_ ?_
    | split
    | with_reducible apply Steady.upd

theorem State.sendSignal_steady {a : State} {s : State} (p : Nat) (r : Req) (w : Sent) (hk : Steady a s) : Steady a (State.sendSignal s p r w) := by
  unfold State.sendSignal
  repeat' first
    | with_reducible assumption
    | intro _
    | (extract_lets +onlyGivenNames v; refine Steady.cut (v := v) ?_ (fun _ => ?_); rotate_left; clear_value v; revert v; intros; rotate_right; unfold v; clear v)
    | (extract_lets +onlyGivenNames v; clear_value v; revert v; intros)
    | with_reducible apply State.arrivePkt_steady
    | with_reducible apply State.send_steady
    | with_reducible apply State.answer_steady
    | with_reducible refine Steady.foldState (fun _ _ _ => ?_) ?_
    | with_reducible refine Steady.foldl (fun _ _ _ => ?_) _ ?_
    | with_reducible refine Steady.choice ?_ ?_
    | split
    | with_reducible apply Steady.upd

theorem State.serve_steady {a : State} {s : State} (hk : Steady a s) : Steady a (State.serve s) := by
  unfold State.serve
  repeat' first
    | with_reducible assumption
    | intro _
    | (extract_lets +onlyGivenNames v; refine Steady.cut (v := v) ?_ (fun _ => ?_); rotate_left; clear_value v; revert v; intros; rotate_right; unfold v; clear v)
    | (extract_lets +onlyGivenNames v; clear_value v; revert v; intros)
    | with_reducible apply State.keepWrite_steady
    | with_reducible apply State.setBoot_steady
    | with_reducible apply State.setReg_steady
    | with_reducible apply State.modSlice_steady
    | with_reducible apply State.retarget_steady
    | with_reducible apply State.showAvail_steady
    | with_reducible refine Steady.foldState (fun _ _ _ => ?_) ?_
    | with_reducible refine Steady.foldl (fun _ _ _ => ?_) _ ?_
    | with_reducible refine Steady.choice ?_ ?_
    | split
    | with_reducible apply Steady.upd

theorem State.serveMiss_steady {a : State} {s : State} (p : Nat) (hk : Steady a s) : Steady a (State.serveMiss s p) := by
  unfold State.serveMiss
  repeat' first
    | with_reducible assumption
    | intro _
    | (extract_lets +onlyGivenNames v; refine Steady.cut (v := v) ?_ (fun _ => ?_); rotate_left; clear_value v; revert v; intros; rotate_right; unfold v; clear v)
    | (extract_lets +onlyGivenNames v; clear_value v; revert v; intros)
    | with_reducible apply State.admitHeld_steady
    | with_reducible apply State.bump_steady
    | with_reducible apply State.ensureResident_steady
    | with_reducible apply State.discardBeats_steady
    | with_reducible apply State.retReq_steady
    | with_reducible apply State.refuseReq_steady
    | with_reducible apply State.modPort_steady
    | with_reducible refine Steady.foldState (fun _ _ _ => ?_) ?_
    | with_reducible refine Steady.foldl (fun _ _ _ => ?_) _ ?_
    | with_reducible refine Steady.choice ?_ ?_
    | split
    | with_reducible apply Steady.upd

theorem State.serveRpMiss_steady {a : State} {s : State} (hk : Steady a s) : Steady a (State.serveRpMiss s) := by
  unfold State.serveRpMiss
  repeat' first
    | with_reducible assumption
    | intro _
    | (extract_lets +onlyGivenNames v; refine Steady.cut (v := v) ?_ (fun _ => ?_); rotate_left; clear_value v; revert v; intros; rotate_right; unfold v; clear v)
    | (extract_lets +onlyGivenNames v; clear_value v; revert v; intros)
    | with_reducible apply State.ensureResident_steady
    | with_reducible apply State.refusePkt_steady
    | with_reducible apply State.bump_steady
    | with_reducible apply State.repayLink_steady
    | with_reducible apply State.serveHeld_steady
    | refine State.takePkt_steady (by assumption) ?_
    | refine Steady.getD (fun _ _ => ?_) ?_
    | with_reducible refine Steady.foldState (fun _ _ _ => ?_) ?_
    | with_reducible refine Steady.foldl (fun _ _ _ => ?_) _ ?_
    | with_reducible refine Steady.choice ?_ ?_
    | split
    | with_reducible apply Steady.upd

theorem State.setLock_steady {a : State} {s : State} (mask : Nat) (op : Nat) (hk : Steady a s) : Steady a (State.setLock s mask op) := by
  unfold State.setLock
  repeat' first
    | with_reducible assumption
    | intro _
    | (extract_lets +onlyGivenNames v; refine Steady.cut (v := v) ?_ (fun _ => ?_); rotate_left; clear_value v; revert v; intros; rotate_right; unfold v; clear v)
    | (extract_lets +onlyGivenNames v; clear_value v; revert v; intros)
    | with_reducible apply State.setReg_steady
    | with_reducible refine Steady.foldState (fun _ _ _ => ?_) ?_
    | with_reducible refine Steady.foldl (fun _ _ _ => ?_) _ ?_
    | with_reducible refine Steady.choice ?_ ?_
    | split
    | with_reducible apply Steady.upd

theorem State.shiftBypass_steady {a : State} {s : State} (wsi : List Bool) (hk : Steady a s) : Steady a (State.shiftBypass s wsi) := by
  unfold State.shiftBypass
  repeat' first
    | with_reducible assumption
    | intro _
    | (extract_lets +onlyGivenNames v; refine Steady.cut (v := v) ?_ (fun _ => ?_); rotate_left; clear_value v; revert v; intros; rotate_right; unfold v; clear v)
    | (extract_lets +onlyGivenNames v; clear_value v; revert v; intros)
    | with_reducible apply State.drive_steady
    | with_reducible refine Steady.foldState (fun _ _ _ => ?_) ?_
    | with_reducible refine Steady.foldl (fun _ _ _ => ?_) _ ?_
    | with_reducible refine Steady.choice ?_ ?_
    | split
    | with_reducible apply Steady.upd

theorem State.startClear_steady {a : State} {s : State} (n : Nat) (cmd : Option Nat) (hk : Steady a s) : Steady a (State.startClear s n cmd) := by
  unfold State.startClear
  repeat' first
    | with_reducible assumption
    | intro _
    | (extract_lets +onlyGivenNames v; refine Steady.cut (v := v) ?_ (fun _ => ?_); rotate_left; clear_value v; revert v; intros; rotate_right; unfold v; clear v)
    | (extract_lets +onlyGivenNames v; clear_value v; revert v; intros)
    | with_reducible apply State.setFld_steady
    | with_reducible apply State.blankRegion_steady
    | with_reducible refine Steady.foldState (fun _ _ _ => ?_) ?_
    | with_reducible refine Steady.foldl (fun _ _ _ => ?_) _ ?_
    | with_reducible refine Steady.choice ?_ ?_
    | split
    | with_reducible apply Steady.upd

theorem State.startCores_steady {a : State} {s : State} (hk : Steady a s) : Steady a (State.startCores s) := by
  unfold State.startCores
  repeat' first
    | with_reducible assumption
    | intro _
    | (extract_lets +onlyGivenNames v; refine Steady.cut (v := v) ?_ (fun _ => ?_); rotate_left; clear_value v; revert v; intros; rotate_right; unfold v; clear v)
    | (extract_lets +onlyGivenNames v; clear_value v; revert v; intros)
    | with_reducible apply State.setBoot_steady
    | with_reducible refine Steady.foldState (fun _ _ _ => ?_) ?_
    | with_reducible refine Steady.foldl (fun _ _ _ => ?_) _ ?_
    | with_reducible refine Steady.choice ?_ ?_
    | split
    | with_reducible apply Steady.upd

theorem State.startPoints_steady {a : State} {s : State} (hk : Steady a s) : Steady a (State.startPoints s) := by
  unfold State.startPoints
  repeat' first
    | with_reducible assumption
    | intro _
    | (extract_lets +onlyGivenNames v; refine Steady.cut (v := v) ?_ (fun _ => ?_); rotate_left; clear_value v; revert v; intros; rotate_right; unfold v; clear v)
    | (extract_lets +onlyGivenNames v; clear_value v; revert v; intros)
    | with_reducible apply State.modDom_steady
    | with_reducible apply State.putPoint_steady
    | with_reducible apply State.askVid_steady
    | with_reducible refine Steady.foldState (fun _ _ _ => ?_) ?_
    | with_reducible refine Steady.foldl (fun _ _ _ => ?_) _ ?_
    | with_reducible refine Steady.choice ?_ ?_
    | split
    | with_reducible apply Steady.upd

theorem State.startShaving_steady {a : State} {s : State} (sl : Nat) (lb : Nat) (ix0 : Nat) (cal : Bool) (ofTest : Bool) (hk : Steady a s) : Steady a (State.startShaving s sl lb ix0 cal ofTest) := by
  unfold State.startShaving
  repeat' first
    | with_reducible assumption
    | intro _
    | (extract_lets +onlyGivenNames v; refine Steady.cut (v := v) ?_ (fun _ => ?_); rotate_left; clear_value v; revert v; intros; rotate_right; unfold v; clear v)
    | (extract_lets +onlyGivenNames v; clear_value v; revert v; intros)
    | with_reducible apply State.showShaving_steady
    | with_reducible apply State.modSlice_steady
    | with_reducible refine Steady.foldState (fun _ _ _ => ?_) ?_
    | with_reducible refine Steady.foldl (fun _ _ _ => ?_) _ ?_
    | with_reducible refine Steady.choice ?_ ?_
    | split
    | with_reducible apply Steady.upd

theorem State.switchMigration_steady {a : State} {s : State} (sl : Nat) (m : Migr) (hk : Steady a s) : Steady a (State.switchMigration s sl m) := by
  unfold State.switchMigration
  repeat' first
    | with_reducible assumption
    | intro _
    | (extract_lets +onlyGivenNames v; refine Steady.cut (v := v) ?_ (fun _ => ?_); rotate_left; clear_value v; revert v; intros; rotate_right; unfold v; clear v)
    | (extract_lets +onlyGivenNames v; clear_value v; revert v; intros)
    | with_reducible apply State.setFld_steady
    | with_reducible apply State.setSpare_steady
    | with_reducible apply State.setBit_steady
    | with_reducible apply State.finding_steady
    | with_reducible apply State.keepSpares_steady
    | with_reducible apply State.modSlice_steady
    | with_reducible apply State.reply_steady
    | with_reducible refine Steady.foldState (fun _ _ _ => ?_) ?_
    | with_reducible refine Steady.foldl (fun _ _ _ => ?_) _ ?_
    | with_reducible refine Steady.choice ?_ ?_
    | split
    | with_reducible apply Steady.upd

theorem State.takeBind_steady {a : State} {s : State} (h : Pkt) (data : List Byte) (hk : Steady a s) : Steady a (State.takeBind s h data) := by
  unfold State.takeBind
  repeat' first
    | with_reducible assumption
    | intro _
    | (extract_lets +onlyGivenNames v; refine Steady.cut (v := v) ?_ (fun _ => ?_); rotate_left; clear_value v; revert v; intros; rotate_right; unfold v; clear v)
    | (extract_lets +onlyGivenNames v; clear_value v; revert v; intros)
    | with_reducible apply State.answerControl_steady
    | with_reducible apply State.settleAll_steady
    | with_reducible apply State.goDown_steady
    | with_reducible apply State.setFld_steady
    | with_reducible apply State.dropControl_steady
    | with_reducible apply State.bindNow_steady
    | with_reducible refine Steady.foldState (fun _ _ _ => ?_) ?_
    | with_reducible refine Steady.foldl (fun _ _ _ => ?_) _ ?_
    | with_reducible refine Steady.choice ?_ ?_
    | split
    | with_reducible apply Steady.upd

theorem State.takeClear_steady {a : State} {s : State} (h : Pkt) (data : List Byte) (hk : Steady a s) : Steady a (State.takeClear s h data) := by
  unfold State.takeClear
  repeat' first
    | with_reducible assumption
    | intro _
    | (extract_lets +onlyGivenNames v; refine Steady.cut (v := v) ?_ (fun _ => ?_); rotate_left; clear_value v; revert v; intros; rotate_right; unfold v; clear v)
    | (extract_lets +onlyGivenNames v; clear_value v; revert v; intros)
    | with_reducible apply State.answerControl_steady
    | with_reducible apply State.blankRegion_steady
    | with_reducible apply State.setFld_steady
    | with_reducible apply State.dropControl_steady
    | with_reducible apply State.outcome_steady
    | with_reducible refine Steady.foldState (fun _ _ _ => ?_) ?_
    | with_reducible refine Steady.foldl (fun _ _ _ => ?_) _ ?_
    | with_reducible refine Steady.choice ?_ ?_
    | split
    | with_reducible apply Steady.upd

theorem State.takeCopy_steady {a : State} {s : State} (h : Pkt) (data : List Byte) (hk : Steady a s) : Steady a (State.takeCopy s h data) := by
  unfold State.takeCopy
  repeat' first
    | with_reducible assumption
    | intro _
    | (extract_lets +onlyGivenNames v; refine Steady.cut (v := v) ?_ (fun _ => ?_); rotate_left; clear_value v; revert v; intros; rotate_right; unfold v; clear v)
    | (extract_lets +onlyGivenNames v; clear_value v; revert v; intros)
    | with_reducible apply State.loseAwait_steady
    | with_reducible apply State.sendNextFetch_steady
    | with_reducible apply State.dropAwait_steady
    | with_reducible apply State.finishRedo_steady
    | with_reducible apply State.commitLine_steady
    | with_reducible apply State.deliver_steady
    | with_reducible apply State.noteRepair_steady
    | with_reducible refine Steady.foldState (fun _ _ _ => ?_) ?_
    | with_reducible refine Steady.foldl (fun _ _ _ => ?_) _ ?_
    | with_reducible refine Steady.choice ?_ ?_
    | split
    | with_reducible apply Steady.upd

theorem State.takeDelete_steady {a : State} {s : State} (h : Pkt) (data : List Byte) (hk : Steady a s) : Steady a (State.takeDelete s h data) := by
  unfold State.takeDelete
  repeat' first
    | with_reducible assumption
    | intro _
    | (extract_lets +onlyGivenNames v; refine Steady.cut (v := v) ?_ (fun _ => ?_); rotate_left; clear_value v; revert v; intros; rotate_right; unfold v; clear v)
    | (extract_lets +onlyGivenNames v; clear_value v; revert v; intros)
    | with_reducible apply State.answerControl_steady
    | with_reducible apply State.deleteRegion_steady
    | with_reducible apply State.regionAnswer_steady
    | with_reducible apply State.outcome_steady
    | with_reducible refine Steady.foldState (fun _ _ _ => ?_) ?_
    | with_reducible refine Steady.foldl (fun _ _ _ => ?_) _ ?_
    | with_reducible refine Steady.choice ?_ ?_
    | split
    | with_reducible apply Steady.upd

theorem State.takeDirty_steady {a : State} {s : State} (h : Pkt) (data : List Byte) (hk : Steady a s) : Steady a (State.takeDirty s h data) := by
  unfold State.takeDirty
  repeat' first
    | with_reducible assumption
    | intro _
    | (extract_lets +onlyGivenNames v; refine Steady.cut (v := v) ?_ (fun _ => ?_); rotate_left; clear_value v; revert v; intros; rotate_right; unfold v; clear v)
    | (extract_lets +onlyGivenNames v; clear_value v; revert v; intros)
    | with_reducible apply State.answerControl_steady
    | with_reducible apply State.setFld_steady
    | with_reducible apply State.mergeChunk_steady
    | with_reducible apply State.dropControl_steady
    | with_reducible apply State.sendControl_steady
    | with_reducible refine Steady.foldState (fun _ _ _ => ?_) ?_
    | with_reducible refine Steady.foldl (fun _ _ _ => ?_) _ ?_
    | with_reducible refine Steady.choice ?_ ?_
    | split
    | with_reducible apply Steady.upd

theorem State.takeFetch_steady {a : State} {s : State} (h : Pkt) (hk : Steady a s) : Steady a (State.takeFetch s h) := by
  unfold State.takeFetch
  repeat' first
    | with_reducible assumption
    | intro _
    | (extract_lets +onlyGivenNames v; refine Steady.cut (v := v) ?_ (fun _ => ?_); rotate_left; clear_value v; revert v; intros; rotate_right; unfold v; clear v)
    | (extract_lets +onlyGivenNames v; clear_value v; revert v; intros)
    | with_reducible apply State.answerTp_steady
    | with_reducible apply State.sendLine_steady
    | with_reducible refine Steady.foldState (fun _ _ _ => ?_) ?_
    | with_reducible refine Steady.foldl (fun _ _ _ => ?_) _ ?_
    | with_reducible refine Steady.choice ?_ ?_
    | split
    | with_reducible apply Steady.upd

theorem State.takeMirror_steady {a : State} {s : State} (h : Pkt) (data : List Byte) (hk : Steady a s) : Steady a (State.takeMirror s h data) := by
  unfold State.takeMirror
  repeat' first
    | with_reducible assumption
    | intro _
    | (extract_lets +onlyGivenNames v; refine Steady.cut (v := v) ?_ (fun _ => ?_); rotate_left; clear_value v; revert v; intros; rotate_right; unfold v; clear v)
    | (extract_lets +onlyGivenNames v; clear_value v; revert v; intros)
    | with_reducible apply State.answerTp_steady
    | with_reducible apply State.sendLine_steady
    | with_reducible refine Steady.foldState (fun _ _ _ => ?_) ?_
    | with_reducible refine Steady.foldl (fun _ _ _ => ?_) _ ?_
    | with_reducible refine Steady.choice ?_ ?_
    | split
    | with_reducible apply Steady.upd

theorem State.takeRegion_steady {a : State} {s : State} (h : Pkt) (data : List Byte) (hk : Steady a s) : Steady a (State.takeRegion s h data) := by
  unfold State.takeRegion
  repeat' first
    | with_reducible assumption
    | intro _
    | (extract_lets +onlyGivenNames v; refine Steady.cut (v := v) ?_ (fun _ => ?_); rotate_left; clear_value v; revert v; intros; rotate_right; unfold v; clear v)
    | (extract_lets +onlyGivenNames v; clear_value v; revert v; intros)
    | with_reducible apply State.answerControl_steady
    | with_reducible apply State.defineRegion_steady
    | with_reducible apply State.regionAnswer_steady
    | with_reducible apply State.finishDefine_steady
    | with_reducible refine Steady.foldState (fun _ _ _ => ?_) ?_
    | with_reducible refine Steady.foldl (fun _ _ _ => ?_) _ ?_
    | with_reducible refine Steady.choice ?_ ?_
    | split
    | with_reducible apply Steady.upd

theorem State.takeRnack_steady {a : State} {s : State} (h : Pkt) (hk : Steady a s) : Steady a (State.takeRnack s h) := by
  unfold State.takeRnack
  repeat' first
    | with_reducible assumption
    | intro _
    | (extract_lets +onlyGivenNames v; refine Steady.cut (v := v) ?_ (fun _ => ?_); rotate_left; clear_value v; revert v; intros; rotate_right; unfold v; clear v)
    | (extract_lets +onlyGivenNames v; clear_value v; revert v; intros)
    | with_reducible apply State.setBit_steady
    | with_reducible apply State.settle_steady
    | with_reducible apply State.packetAnswered_steady
    | with_reducible refine Steady.foldState (fun _ _ _ => ?_) ?_
    | with_reducible refine Steady.foldl (fun _ _ _ => ?_) _ ?_
    | with_reducible refine Steady.choice ?_ ?_
    | split
    | with_reducible apply Steady.upd

theorem State.takeTack_steady {a : State} {s : State} (h : Pkt) (hk : Steady a s) : Steady a (State.takeTack s h) := by
  unfold State.takeTack
  repeat' first
    | with_reducible assumption
    | intro _
    | (extract_lets +onlyGivenNames v; refine Steady.cut (v := v) ?_ (fun _ => ?_); rotate_left; clear_value v; revert v; intros; rotate_right; unfold v; clear v)
    | (extract_lets +onlyGivenNames v; clear_value v; revert v; intros)
    | with_reducible apply State.sendNextMirror_steady
    | with_reducible apply State.dropAwait_steady
    | with_reducible apply State.deliver_steady
    | with_reducible apply State.fxSeen_steady
    | with_reducible apply State.setBit_steady
    | with_reducible apply State.markDirty_steady
    | with_reducible apply State.finishCopy_steady
    | with_reducible refine Steady.foldState (fun _ _ _ => ?_) ?_
    | with_reducible refine Steady.foldl (fun _ _ _ => ?_) _ ?_
    | with_reducible refine Steady.choice ?_ ?_
    | split
    | with_reducible apply Steady.upd

theorem State.unbind_steady {a : State} {s : State} (hk : Steady a s) : Steady a (State.unbind s) := by
  unfold State.unbind
  repeat' first
    | with_reducible assumption
    | intro _
    | (extract_lets +onlyGivenNames v; refine Steady.cut (v := v) ?_ (fun _ => ?_); rotate_left; clear_value v; revert v; intros; rotate_right; unfold v; clear v)
    | (extract_lets +onlyGivenNames v; clear_value v; revert v; intros)
    | with_reducible apply State.setReg_steady
    | with_reducible refine Steady.foldState (fun _ _ _ => ?_) ?_
    | with_reducible refine Steady.foldl (fun _ _ _ => ?_) _ ?_
    | with_reducible refine Steady.choice ?_ ?_
    | split
    | with_reducible apply Steady.upd

theorem State.undoAction_steady {a : State} {s : State} (hk : Steady a s) : Steady a (State.undoAction s) := by
  unfold State.undoAction
  repeat' first
    | with_reducible assumption
    | intro _
    | (extract_lets +onlyGivenNames v; refine Steady.cut (v := v) ?_ (fun _ => ?_); rotate_left; clear_value v; revert v; intros; rotate_right; unfold v; clear v)
    | (extract_lets +onlyGivenNames v; clear_value v; revert v; intros)
    | with_reducible apply State.setFld_steady
    | with_reducible refine Steady.foldState (fun _ _ _ => ?_) ?_
    | with_reducible refine Steady.foldl (fun _ _ _ => ?_) _ ?_
    | with_reducible refine Steady.choice ?_ ?_
    | split
    | with_reducible apply Steady.upd

theorem State.wake_steady {a : State} {s : State} (hk : Steady a s) : Steady a (State.wake s) := by
  unfold State.wake
  repeat' first
    | with_reducible assumption
    | intro _
    | (extract_lets +onlyGivenNames v; refine Steady.cut (v := v) ?_ (fun _ => ?_); rotate_left; clear_value v; revert v; intros; rotate_right; unfold v; clear v)
    | (extract_lets +onlyGivenNames v; clear_value v; revert v; intros)
    | with_reducible apply State.abandonEntry_steady
    | with_reducible apply State.startExit_steady
    | with_reducible refine Steady.foldState (fun _ _ _ => ?_) ?_
    | with_reducible refine Steady.foldl (fun _ _ _ => ?_) _ ?_
    | with_reducible refine Steady.choice ?_ ?_
    | split
    | with_reducible apply Steady.upd

theorem State.walk_steady {a : State} {s : State} (sl : Nat) (hk : Steady a s) : Steady a (State.walk s sl) := by
  unfold State.walk
  repeat' first
    | with_reducible assumption
    | intro _
    | (extract_lets +onlyGivenNames v; refine Steady.cut (v := v) ?_ (fun _ => ?_); rotate_left; clear_value v; revert v; intros; rotate_right; unfold v; clear v)
    | (extract_lets +onlyGivenNames v; clear_value v; revert v; intros)
    | with_reducible apply State.nextShaving_steady
    | with_reducible apply State.bump_steady
    | with_reducible apply State.startShaving_steady
    | with_reducible refine Steady.foldState (fun _ _ _ => ?_) ?_
    | with_reducible refine Steady.foldl (fun _ _ _ => ?_) _ ?_
    | with_reducible refine Steady.choice ?_ ?_
    | split
    | with_reducible apply Steady.upd

theorem State.wrapper_steady {a : State} {s : State} (ir : Nat) (wsi : List Bool) (act : State → State) (hact : ∀ y0, Steady a y0 → Steady a (act y0)) (hk : Steady a s) : Steady a (State.wrapper s ir wsi act) := by
  unfold State.wrapper
  repeat' first
    | with_reducible assumption
    | intro _
    | (extract_lets +onlyGivenNames v; refine Steady.cut (v := v) ?_ (fun _ => ?_); rotate_left; clear_value v; revert v; intros; rotate_right; unfold v; clear v)
    | (extract_lets +onlyGivenNames v; clear_value v; revert v; intros)
    | with_reducible apply State.shiftBypass_steady
    | with_reducible apply hact
    | with_reducible refine Steady.foldState (fun _ _ _ => ?_) ?_
    | with_reducible refine Steady.foldl (fun _ _ _ => ?_) _ ?_
    | with_reducible refine Steady.choice ?_ ?_
    | split
    | with_reducible apply Steady.upd

end Sys2Proof.Machine
end

