-- ==== Sys2Proof/WellFormed.lean ====
section
/-! DEFINITION. Well-formed commands: operands that the block's own tables bound (ports, groups, slices, domains, tags,
slots, opcodes of headers). What lies outside them no sender of the block drives (log 3). -/
namespace Sys2Proof

/-- The opcode of a request header, `REQ_HDR[4:0]` (Table 3.5). -/
def headerOpcode (h : Hdr) : Nat := h.toNat % 32

/-- The opcodes of Table 3.7. -/
def definedOpcode (o : Nat) : Bool :=
  decide (o ≤ 0x1E) && !(o == 0x03 || o == 0x07 || (decide (0x0A ≤ o) && decide (o ≤ 0x0F)) || o == 0x13)

/-- A request row's header carries the row's opcode; one with an undefined opcode is malformed on any row (R52). -/
def requestWF (opc p : Nat) (h : Hdr) : Bool :=
  decide (p ≤ 12) && (headerOpcode h == opc || !definedOpcode (headerOpcode h))

/-- The type of a link packet (Tables 9.5 and 9.9). -/
def packetType (h : Pkt) : Nat := h.toNat % 16

/-- A control message or its answer: `TFETCH` or `TDATA` with `CTL` 1 (Table 9.9). -/
def isControl (h : Pkt) : Bool := (packetType h == 10 || packetType h == 11) && h.getLsbD 4

/-- A read-back names lines and words of a shaving, and bits of a 72-bit word or of a 32-bit outer-code field. -/
def ReadBack.wellFormed (r : ReadBack) : Bool :=
  (r.words.all fun w => decide (w.1 < 128 ∧ w.2.1 < 16 ∧ 0 < w.2.2 ∧ w.2.2 < 2 ^ 72))
  && r.outer.all fun w => decide (w.1 < 128 ∧ 0 < w.2 ∧ w.2 < 2 ^ 32)

/-- The test of a spare names a slice, one of its two spares, and lines and words of a bank. -/
def SpareTest.wellFormed (t : SpareTest) : Bool :=
  decide (t.sl < 8 ∧ (t.pos = 64 ∨ t.pos = 65))
  && (t.words.all fun w => decide (w.1 < 16384 ∧ w.2.1 < 16 ∧ 0 < w.2.2 ∧ w.2.2 < 2 ^ 72))
  && t.outer.all fun w => decide (w.1 < 16384 ∧ 0 < w.2 ∧ w.2 < 2 ^ 32)

/-- A failing sub-array names what Table 14.7 can name. -/
def SubFail.wellFormed (f : SubFail) : Bool :=
  decide (f.bg < 4 ∧ f.pb < 528 ∧ f.sub < 16) && f.lines.all fun a => decide (a < 2048)

/-- Operands within what Tables 0.2, 0.3, 3.9, 5.2, 9.5, 9.9 and 10.9 name. -/
def Instr.wellFormed : Instr → Bool
  | .nop p h => requestWF 0x00 p h
  | .rd p h => requestWF 0x01 p h
  | .rdv p h => requestWF 0x02 p h
  | .wr p h => requestWF 0x04 p h
  | .wrv p h => requestWF 0x05 p h
  | .wrp p h => requestWF 0x06 p h
  | .acc p h => requestWF 0x08 p h
  | .accx p h => requestWF 0x09 p h
  | .cntAdd p h => requestWF 0x10 p h
  | .cntWait p h => requestWF 0x11 p h
  | .cntRd p h => requestWF 0x12 p h
  | .flgSet p h => requestWF 0x14 p h
  | .flgClr p h => requestWF 0x15 p h
  | .flgWait p h => requestWF 0x16 p h
  | .flgTest p h => requestWF 0x17 p h
  | .rangeOpen p h => requestWF 0x18 p h
  | .rangeClose p h => requestWF 0x19 p h
  | .streamOpen p h => requestWF 0x1A p h
  | .streamStep p h => requestWF 0x1B p h
  | .streamClose p h => requestWF 0x1C p h
  | .inval p h => requestWF 0x1D p h
  | .fence p h => requestWF 0x1E p h
  | .writeDataBeat p data _ => decide (p ≤ 12 ∧ data.length ≤ 2048)
  | .hogCutoff p => decide (p ≤ 12)
  | .contextMiss p => decide (p ≤ 12)
  | .accumulateGateAdmit g => decide (g < 32)
  | .bankGrant g trips => decide (g < 32) && trips.all fun b => decide (b < 18)
  | .scoreboardRelease p => decide (p ≤ 12)
  | .rangeCloseInForce i => decide (i < 256)
  | .streamPrefetch p k => decide (p < 4 ∧ k < 4)
  | .streamStepDeliver p k => decide (p < 4 ∧ k < 4)
  | .finalAdvance p => decide (p ≤ 12)
  | .waitRelease p => decide (p ≤ 12)
  | .heldWaitAnswer p => decide (p ≤ 12)
  | .ringHoldApply p => decide (p ≤ 12)
  | .dreqPulse k => decide (k < 64)
  | .overflowEvent p => decide (p ≤ 12)
  | .rwriteSend p => decide (p ≤ 12)
  | .rsigSend p _ => decide (p ≤ 12)
  | .rwrite h data => packetType h == 1 && !h.getLsbD 4 && decide (data.length ≤ 128)
  | .closingPacket h data => packetType h == 1 && h.getLsbD 4 && decide (data.length ≤ 128)
  | .batchClose b => decide (b < 256)
  | .batchTimeout b => decide (b < 256)
  | .rsig h data _ => packetType h == 2 && decide (data.length ≤ 128)
  | .rsigApply _ => true
  | .rnack h => packetType h == 3
  | .retryResend tag => decide (tag < 512)
  | .responseTimeout tag => decide (tag < 512)
  | .linkLost _ _ => true
  | .linkUpChange _ _ => true
  | .linkTxCredit _ => true
  | .twrite h data => packetType h == 8 && decide (data.length ≤ 128)
  | .tack h => packetType h == 9
  | .twinRetryResend tag => decide (tag < 1024)
  | .twinTimeout tag => decide (tag < 1024)
  | .tfetch h => packetType h == 10 && !isControl h
  | .tdata h data => packetType h == 11 && !isControl h && decide (data.length ≤ 128)
  | .bindMessage h data => isControl h && decide (data.length ≤ 128)
  | .regionMessage h data => isControl h && decide (data.length ≤ 128)
  | .deleteMessage h data => isControl h && decide (data.length ≤ 128)
  | .clearMessage h data => isControl h && decide (data.length ≤ 128)
  | .dirtyMessage h data => isControl h && decide (data.length ≤ 128)
  | .unbindMessage h data => isControl h && decide (data.length ≤ 128)
  | .downMessage h data => isControl h && decide (data.length ≤ 128)
  | .turnBoundary _ sensors stopped => decide (sensors.temps.length ≤ 9 ∧ sensors.margins.length ≤ 9 ∧ stopped < 16)
  | .throttleUndo => true
  | .idleLowering d => decide (d < 9)
  | .boost d => decide (d < 9)
  | .portHang p => decide (p ≤ 12)
  | .contextHang slot => decide (slot < 64)
  | .ccHang cores => decide (cores < 16)
  | .idleEntry => true
  | .wakeEvent _ => true
  | .shavingStart sl => decide (sl < 8)
  | .shavingStep sl seen => decide (sl < 8) && seen.wellFormed
  | .retirementStart lb _ => decide (lb < 512)
  | .migrationSwitch sl => decide (sl < 8)
  | .sliceFault sl _ => decide (sl < 8)
  | .recoveryStart => true
  | .recoveryComplete sl found => decide (sl < 8 ∧ found.trims.length ≤ 66) && found.tests.all SpareTest.wellFormed
  | .coldReset instId _ => decide (instId < 32768)
  | .warmReset => true
  | .imageCheck => true
  | .secenInitDone tests => (tests.getD []).all SpareTest.wellFormed
  | .bootGo => true
  | .vaLost => true
  | .thermalTrip => true
  | .vfReady => true
  | .vfTimeout => true
  | .droop d => decide (d < 9)
  | .droopClear d => decide (d < 9)
  | .droopLong d => decide (d < 9)
  | .ftimeBad _ => true
  | .ageingSample => true
  | .ageingReplan => true
  | .echo _ => true
  | .getInfo _ => true
  | .fwInfo _ => true
  | .undefinedCommand _ => true
  | .regionDefine _ => true
  | .regionDelete _ => true
  | .regionClear _ => true
  | .regionClearDone => true
  | .windowOpen _ => true
  | .windowClose _ => true
  | .windowCloseDone => true
  | .ctxBind _ => true
  | .ctxUnbind _ => true
  | .ringDeclare _ => true
  | .pwrArm _ => true
  | .pwrState _ => true
  | .pwrCap _ => true
  | .phaseDefine _ => true
  | .phaseSet _ => true
  | .domainLock _ => true
  | .testRun _ => true
  | .checkerMode _ => true
  | .bankRetire _ => true
  | .twinBind _ => true
  | .twinResync _ => true
  | .resyncComplete => true
  | .portFence _ => true
  | .fenceDrained p => decide (p ≤ 12)
  | .portUnfence _ => true
  | .resetPartition _ => true
  | .resetSlice _ => true
  | .keepRead _ => true
  | .keepErase _ => true
  | .slotSwap _ => true
  | .slotShadowWrite g w _ => decide (g < 32 ∧ w < 4)
  | .slotRankWrite _ => true
  | .slotFreeze _ => true
  | .viewHdrWrite e _ => decide (e < 1024)
  | .viewStrideWrite e _ _ => decide (e < 1024)
  | .flush p => decide (p ≤ 12)
  | .elogPop => true
  | .btAbort _ => true
  | .readClear a => decide (a.off < 2 ^ 20)
  | .registerWrite off _ => decide (off < 2 ^ 20)
  | .wsBypass => true
  | .wsExtest => true
  | .wsPreload _ => true
  | .tmMbist v => decide (v < 2 ^ 32)
  | .mbistComplete rows cols whole =>
    (rows ++ cols).all SubFail.wellFormed && whole.all fun e => decide (e.1 < 4 ∧ e.2.1 < 528 ∧ e.2.2 < 16)
  | .tmStatus => true
  | .tmRepairRd => true
  | .tmRepairLd e => decide (e < 2 ^ 32)
  | .tmFuseRd => true
  | .keepDomainLoss => true
  | .poresetAssert => true
  | .selfTestDone => true
  | .twinBindTimeout => true
  | .vfReadyRelease => true
  | .runMinute => true

end Sys2Proof
end

