-- ==== Sys2Proof/Tests/Slice0.lean ====
section
/-! SUPPORT. Tests: well-formedness, and for every statement of Slice0 a concrete state and operands that meet the hypotheses of
each of its clauses, with what the command then does. The expected values are worked out by hand from the tables of the spec. -/
namespace Sys2Proof.Tests
open Sys2Proof.Machine
set_option Elab.async false

/-! ## States -/

/-- The state after a command. -/
def after (c : Instr) (s : State) : State := match exec c s with
  | .next t => t
  | _ => s

/-- A header from its fields (lowest bit, value). -/
def hdr (fs : List (Nat × Nat)) : Hdr := BitVec.ofNat 256 (fs.foldl (fun a f => a + f.2 * 2 ^ f.1) 0)

/-- Firmware runs. -/
def ready : State := State.reset.setFld oBootStat 63 60 5

/-- Region 0: 16 units from unit 0, a storage format, all ports, all permissions. -/
def region (fmt : Nat) (s : State) : State :=
  s.defineRegion 0 { span := 16 * 2 ^ 32, attr := fmt + 7 * 2 ^ 32 + 0x1FFF * 2 ^ 48, aux := 0 }

/-- Context 3: four counters, four flags, routes from 0, no key. -/
def ctx3 : Bound :=
  { ccnt := 4, fcnt := 4, rbase := 0, rcnt := 2, ecen := false, ectr := 0, epoch := 0, keys := 0, ctrs := [], flgs := [] }

/-- Firmware runs, region 0 holds FP32, context 3 is bound. -/
def bound3 : State := { region 0 ready with bound := [(3, ctx3)] }

/-- As `bound3`, with context 3 resident in slot 0. -/
def work : State := bound3.loadCtx 3 0 0 0

/-- Command 0 is posted with an opcode and parameter words. -/
def posted (opc : Nat) (ws : List Nat) (s : State) : State :=
  let s := s.setFld oCmdPosted 31 0 1
  let s := s.setReg (oCmdSlot 0 0) (BitVec.ofNat 64 opc)
  foldState (fun s i => s.setReg (oCmdSlot 0 (i + 1)) (BitVec.ofNat 64 (ws.getD i 0))) (List.range 7) s

/-- A command has been answered with a code and a detail in reply slot 0. -/
def replied (t : State) (opc code detail : Nat) : Bool := t.reg (oRplSlot 0 0) == BitVec.ofNat 64 (opc * 2 ^ 24 + detail * 2 ^ 16 + code)

/-! ## Well-formed commands -/

theorem test_wf_request : (Instr.rd 12 (hdr [(0, opRd)])).wellFormed = true := by decide
theorem test_wf_request_port : (Instr.rd 13 (hdr [(0, opRd)])).wellFormed = false := by decide
theorem test_wf_request_opcode : (Instr.rd 0 (hdr [(0, opWr)])).wellFormed = false := by decide
theorem test_wf_request_undefined : (Instr.rd 0 (hdr [(0, 0x03)])).wellFormed = true := by decide
theorem test_wf_beat : (Instr.writeDataBeat 12 [] 0).wellFormed = true ∧ (Instr.writeDataBeat 13 [] 0).wellFormed = false := by decide
theorem test_wf_port : (Instr.hogCutoff 13).wellFormed = false := by decide
theorem test_wf_group : (Instr.bankGrant 31 []).wellFormed = true ∧ (Instr.bankGrant 32 []).wellFormed = false := by decide
theorem test_wf_range : (Instr.rangeCloseInForce 256).wellFormed = false := by decide
theorem test_wf_stream : (Instr.streamPrefetch 4 0).wellFormed = false ∧ (Instr.streamStepDeliver 0 4).wellFormed = false := by decide
theorem test_wf_ring : (Instr.dreqPulse 64).wellFormed = false := by decide
theorem test_wf_packet : (Instr.rwrite (mkPkt [(0, 1)]) []).wellFormed = true ∧ (Instr.rwrite (mkPkt [(0, 1), (4, 1)]) []).wellFormed = false ∧
    (Instr.closingPacket (mkPkt [(0, 1)]) []).wellFormed = false ∧ (Instr.rsig (mkPkt [(0, 1)]) [] 0).wellFormed = false ∧
    (Instr.rnack (mkPkt [(0, 2)])).wellFormed = false := by decide
theorem test_wf_payload : (Instr.rwrite (mkPkt [(0, 1)]) (List.replicate 129 0)).wellFormed = false := by decide +kernel
theorem test_wf_batch : (Instr.batchClose 256).wellFormed = false := by decide
theorem test_wf_tag : (Instr.retryResend 512).wellFormed = false ∧ (Instr.twinTimeout 1024).wellFormed = false := by decide
theorem test_wf_twin : (Instr.twrite (mkPkt [(0, 9)]) []).wellFormed = false ∧ (Instr.tack (mkPkt [(0, 8)])).wellFormed = false ∧
    (Instr.tfetch (mkPkt [(0, 10), (4, 1)])).wellFormed = false ∧ (Instr.tdata (mkPkt [(0, 11), (4, 1)]) []).wellFormed = false ∧
    (Instr.bindMessage (mkPkt [(0, 10)]) []).wellFormed = false := by decide
theorem test_wf_boundary : (Instr.turnBoundary 0 ⟨List.replicate 10 0, []⟩ 0).wellFormed = false ∧
    (Instr.turnBoundary 0 ⟨[], []⟩ 16).wellFormed = false := by decide
theorem test_wf_domain : (Instr.droop 8).wellFormed = true ∧ (Instr.droop 9).wellFormed = false := by decide
theorem test_wf_slot : (Instr.contextHang 64).wellFormed = false := by decide
theorem test_wf_cores : (Instr.ccHang 16).wellFormed = false := by decide
theorem test_wf_slice : (Instr.shavingStart 8).wellFormed = false ∧
    (Instr.shavingStep 0 ⟨[(128, 0, 1)], []⟩).wellFormed = false ∧ (Instr.shavingStep 0 ⟨[(127, 15, 1)], []⟩).wellFormed = true := by decide
theorem test_wf_bank : (Instr.retirementStart 512 .hardFault).wellFormed = false := by decide
theorem test_wf_trims : (Instr.recoveryComplete 0 ⟨List.replicate 67 0, []⟩).wellFormed = false ∧
    (Instr.recoveryComplete 0 ⟨[], [⟨7, 63, [], [], false⟩]⟩).wellFormed = false ∧ (Instr.secenInitDone (some [⟨8, 64, [], [], false⟩])).wellFormed = false := by
  decide
theorem test_wf_instance : (Instr.coldReset 32768 []).wellFormed = false := by decide
theorem test_wf_shadow : (Instr.slotShadowWrite 32 0 0).wellFormed = false ∧ (Instr.slotShadowWrite 0 4 0).wellFormed = false := by decide
theorem test_wf_view : (Instr.viewHdrWrite 1024 0).wellFormed = false := by decide
theorem test_wf_offset : (Instr.readClear ⟨2 ^ 20, 0⟩).wellFormed = false ∧ (Instr.registerWrite (2 ^ 20) 0).wellFormed = false := by decide
theorem test_wf_mbist : (Instr.tmMbist (2 ^ 32)).wellFormed = false ∧ (Instr.mbistComplete [⟨0, 528, 0, []⟩] [] []).wellFormed = false := by decide
theorem test_wf_repair : (Instr.tmRepairLd (2 ^ 32)).wellFormed = false := by decide

/-! ## The queue, reset, invariants -/

theorem witness_StepRunsTheFrontCommand_idle : State.reset.pending = [] ∧
    ({ State.reset with pins := { State.reset.pins with poreset := true } } : State).pins.poreset = true ∧
    (State.reset.setFld oPwrStat 63 62 3).ps = 3 := by decide +kernel

theorem witness_StepKeepsMemory : ({ State.reset with mem := [(0, 5), (148, 1)] } : State).memOk = true := by decide +kernel

theorem witness_StepKeepsCycleInTurn : ({ State.reset with cyc := 4095 } : State).cyc ≤ 4095 ∧
    State.reset.iid < 2 ^ 15 := by decide +kernel

theorem witness_CommandsKeepTimeAndOutputs : (after .wsBypass State.reset).driven = [.wso 0] ∧
    (∀ i f, Instr.wsBypass ≠ .coldReset i f) := ⟨by decide +kernel, fun _ _ => nofun⟩

/-! ## Requests -/

def nop0 : Hdr := hdr [(0, opNop), (16, 3), (32, 7)]

theorem takes_work : work.Takes 0 := ⟨by decide +kernel, by decide +kernel, by decide +kernel, by decide +kernel⟩
theorem idle_work : work.Idle 0 := ⟨takes_work, by decide +kernel, by decide +kernel, by decide +kernel, by decide +kernel⟩
theorem idle_vp : work.Idle 4 := ⟨⟨by decide +kernel, by decide +kernel, by decide +kernel, by decide +kernel⟩, by decide +kernel, by decide +kernel, by decide +kernel, by decide +kernel⟩
theorem idle_bound3 : bound3.Idle 0 :=
  ⟨⟨by decide +kernel, by decide +kernel, by decide +kernel, by decide +kernel⟩, by decide +kernel, by decide +kernel, by decide +kernel, by decide +kernel⟩

theorem witness_RequestsTouchTheirPortOnly : work.openPartner 0 = true ∧ 0 < (work.port 0).reqCrd ∧ work.pw.entry = none ∧
    ((after (.nop 0 nop0) work).port 0).reqCrd = 32 ∧ (after (.nop 0 nop0) work).driven = [.rspA 0 0 7 0, .reqCrd 0] := by decide +kernel

theorem witness_RefusedRequestAnswered : work.Idle 0 ∧ work.verdict 0 (hdr [(0, opNop), (16, 4), (32, 7)]) = .refuse 10 ∧
    (after (.nop 0 (hdr [(0, opNop), (16, 4), (32, 7)])) work).driven = [.rspA 0 10 7 0, .reqCrd 0] := ⟨idle_work, by decide +kernel⟩

/-- A read refused at an address in no region, on the read lane. -/
theorem witness_RefusedRequestAnswered_read : work.verdict 0 (hdr [(0, opRd), (16, 3), (32, 7), (64, 16 * 8192), (140, 7)]) = .refuse 5 ∧
    (after (.rd 0 (hdr [(0, opRd), (16, 3), (32, 7), (64, 16 * 8192), (140, 7)])) work).driven.length = 2 := by decide +kernel

theorem witness_MissedRequestHeld : bound3.Idle 0 ∧ bound3.verdict 0 nop0 = .miss ∧
    (((after (.nop 0 nop0) bound3).port 0).inq.length = 1) ∧ ((after (.nop 0 nop0) bound3).port 0).reqCrd = 31 := ⟨idle_bound3, by decide +kernel⟩

/-- A read of 128 bytes at the last line of region 0. -/
def rdEnd : Hdr := hdr [(0, opRd), (16, 3), (32, 7), (64, 16 * 8192 - 16), (140, 127)]

theorem witness_DataRequestAccepted : work.Takes 0 ∧ work.verdict 0 rdEnd = .pass ∧ work.isLoad 0 rdEnd = false ∧
    work.isChecker 0 rdEnd = false ∧ hRmt rdEnd = false ∧ work.regionAt (firstWord rdEnd) = some 0 ∧
    (after (.rd 0 rdEnd) work).inflight 0 = 1 ∧ ((after (.rd 0 rdEnd) work).groups.map fun e => e.2.waitq.length) = [1] :=
  ⟨takes_work, by decide +kernel⟩

def writes : List Nat := [opWr, opWrp, opAcc]

/-- A write, a partial write and an accumulate of two FP32 elements pass the checks. -/
theorem witness_DataRequestAccepted_writes :
    ∀ o ∈ writes, work.verdict 0 (hdr [(0, o), (16, 3), (64, 0), (140, 7)]) = .pass := by decide +kernel

theorem test_write_waits_for_beats : ((after (.wr 0 (hdr [(0, opWr), (16, 3), (64, 0), (140, 7)])) work).port 0).due.length = 1 := by
  decide

/-- Load space: CP bulk in LOAD. -/
def loading : State := State.reset.setFld oBootStat 63 60 1
def rdCp : Hdr := hdr [(0, opRd), (140, 7), (156, 6)]

theorem witness_RequestOutsideRegionsAccepted_load : loading.Takes 12 ∧ loading.verdict 12 rdCp = .pass ∧
    loading.isLoad 12 rdCp = true ∧ (after (.rd 12 rdCp) loading).fw = loading.fw :=
  ⟨⟨by decide +kernel, by decide +kernel, by decide +kernel, by decide +kernel⟩, by decide +kernel⟩

/-- Checker space: the last line of the last physical bank. -/
def checking : State := work.setReg oChk 1
def rdChk : Hdr := hdr [(0, opRd), (16, 3), (64, 527 * 2 ^ 14 + 16383), (140, 255), (156, 6)]

theorem witness_RequestOutsideRegionsAccepted_checker : checking.Takes 12 ∧ checking.verdict 12 rdChk = .pass ∧
    checking.isLoad 12 rdChk = false ∧ checking.isChecker 12 rdChk = true :=
  ⟨⟨by decide +kernel, by decide +kernel, by decide +kernel, by decide +kernel⟩, by decide +kernel⟩

/-- A remote write to window 5 of instance 9. -/
def wrRmt : Hdr := hdr [(0, opWr), (13, 1), (16, 3), (64, 9 * 2 ^ 51 + 5 * 2 ^ 43), (140, 7)]

theorem witness_RequestOutsideRegionsAccepted_remote : work.Takes 0 ∧ work.verdict 0 wrRmt = .pass ∧ work.isLoad 0 wrRmt = false ∧
    work.isChecker 0 wrRmt = false ∧ hRmt wrRmt = true ∧ (((after (.wr 0 wrRmt) work).port 0).reqs.map fun r => r.space) = [3] :=
  ⟨takes_work, by decide +kernel⟩

def inval4 : Hdr := hdr [(0, opInval), (16, 3), (64, 0), (140, 127)]
def cached : State := work.modPort 4 fun q => { q with vpc := [(0, zeroLine), (1, zeroLine)] }

theorem witness_NopFenceInvalAnswered : work.Idle 0 ∧ work.verdict 0 nop0 = .pass ∧
    work.verdict 0 (hdr [(0, opFence), (16, 3)]) = .pass ∧ (after (.fence 0 (hdr [(0, opFence), (16, 3)])) work).driven.length = 2 ∧
    cached.verdict 4 inval4 = .pass ∧ cached.regionAt (firstWord inval4) = some 0 ∧
    (((after (.inval 4 inval4) cached).port 4).vpc.map fun e => e.1) = [1] := ⟨idle_work, by decide +kernel⟩

theorem idle_cached : cached.Idle 4 := ⟨⟨by decide +kernel, by decide +kernel, by decide +kernel, by decide +kernel⟩, by decide +kernel, by decide +kernel, by decide +kernel, by decide +kernel⟩

/-! ## Counters, flags, waits -/

/-- CNT_ADD of all ones to counter 3, the context's last. -/
def add3 : Hdr := hdr [(0, opCntAdd), (16, 3), (48, 3), (64, 2 ^ 64 - 1)]
def one3 : State := { work with counters := [(3, ⟨1, none⟩)], waiters := [⟨40, 1, 3, 5, false, 3, 3, 2, false, false, 6, none, none, none, false⟩] }

theorem idle_one3 : one3.Idle 0 := ⟨⟨by decide +kernel, by decide +kernel, by decide +kernel, by decide +kernel⟩, by decide +kernel, by decide +kernel, by decide +kernel, by decide +kernel⟩

theorem witness_CounterAndFlagOperations_add : one3.Idle 0 ∧ one3.verdict 0 add3 = .pass ∧ one3.slotOf 3 = some 0 ∧
    one3.translate 0 false true 3 = .local 3 ∧ one3.fits 3 (2 ^ 64 - 1) = true ∧
    ((after (.cntAdd 0 add3) one3).ctr 3).val = BitVec.ofNat 64 (2 ^ 64 - 1) ∧ (after (.cntAdd 0 add3) one3).bit oSyncErr 0 = true ∧
    ((after (.cntAdd 0 add3) one3).waiters.map fun w => w.met) = [some one3.now] := ⟨idle_one3, by decide +kernel⟩

theorem witness_CounterAndFlagOperations_flags : work.verdict 0 (hdr [(0, opFlgSet), (16, 3), (48, 3)]) = .pass ∧
    work.verdict 0 (hdr [(0, opFlgClr), (16, 3), (48, 3)]) = .pass ∧ work.translate 0 true true 3 = .local 3 ∧
    ((after (.flgSet 0 (hdr [(0, opFlgSet), (16, 3), (48, 3)])) work).flg 3).val = true ∧
    (after (.flgClr 0 (hdr [(0, opFlgClr), (16, 3), (48, 3)])) { work with flags := [(3, ⟨true, none⟩)] }).driven =
      [.rspA 0 0 0 1, .reqCrd 0] := by decide +kernel

theorem witness_CounterAndFlagOperations_reads : one3.verdict 0 (hdr [(0, opCntRd), (16, 3), (48, 3)]) = .pass ∧
    one3.verdict 0 (hdr [(0, opFlgTest), (16, 3), (48, 3)]) = .pass ∧ one3.translate 0 true false 3 = .local 3 ∧
    (after (.cntRd 0 (hdr [(0, opCntRd), (16, 3), (48, 3)])) one3).driven = [.rspA 0 0 0 1, .reqCrd 0] ∧
    (after (.flgTest 0 (hdr [(0, opFlgTest), (16, 3), (48, 3)])) one3).driven = [.rspA 0 0 0 0, .reqCrd 0] := by decide +kernel

def wait3 (v : Nat) : Hdr := hdr [(0, opCntWait), (16, 3), (40, 31), (48, 3), (64, v)]
def full3 : State := { one3 with waiters := List.replicate 256 ⟨40, 0, 3, 5, false, 3, 3, 9, false, false, 6, none, none, none, false⟩ }

theorem witness_WaitsAnswered : one3.verdict 0 (wait3 1) = .pass ∧ one3.verdict 0 (wait3 2) = .pass ∧
    one3.translate 0 false false 3 = .local 3 ∧ (after (.cntWait 0 (wait3 1)) one3).driven = [.rspA 0 0 0 1, .reqCrd 0] ∧
    (after (.cntWait 0 (wait3 2)) one3).driven = [.rspA 0 2 0 1, .reqCrd 0] ∧ (after (.cntWait 0 (wait3 2)) one3).waiters.length = 2 ∧
    (one3.waiters.filter fun v => v.port == 0).length < 256 := by decide +kernel

theorem witness_WaitsAnswered_full : (full3.waiters.filter fun v => v.port == 0).length = 256 ∧ full3.verdict 0 (wait3 2) = .pass ∧
    (after (.cntWait 0 (wait3 2)) full3).driven = [.reqCrd 0] ∧
    (((after (.cntWait 0 (wait3 2)) full3).port 0).reqs.map fun r => r.phase) = [.held] := by decide +kernel

theorem witness_WaitsAnswered_flag : work.verdict 0 (hdr [(0, opFlgWait), (16, 3), (48, 3)]) = .pass ∧
    (after (.flgWait 0 (hdr [(0, opFlgWait), (16, 3), (48, 3)])) work).driven = [.rspA 0 2 0 0, .reqCrd 0] := by decide +kernel

/-- Route 1 goes to counter 17 of instance 9; counters 0 and 1 hold a ring of capacity 2. -/
def routed : State := (work.setReg (oRoute 1) (BitVec.ofNat 64 (2 ^ 63 + 9 * 2 ^ 44 + 17))).setReg (oRing 0)
  (BitVec.ofNat 64 (2 ^ 63 + 0 * 2 ^ 44 + 1 * 2 ^ 32 + 2 * 2 ^ 16 + 1 * 2 ^ 8))
def add (sid v : Nat) : Hdr := hdr [(0, opCntAdd), (16, 3), (48, sid), (64, v)]

theorem idle_routed : routed.Idle 0 := ⟨⟨by decide +kernel, by decide +kernel, by decide +kernel, by decide +kernel⟩, by decide +kernel, by decide +kernel, by decide +kernel, by decide +kernel⟩

theorem witness_SyncOperationsThatWait : routed.Idle 0 ∧ routed.verdict 0 (add 5 1) = .pass ∧
    routed.translate 0 false true 5 = .routed 1 ∧ (((after (.cntAdd 0 (add 5 1)) routed).port 0).reqs.map fun r => r.phase) = [.active] ∧
    routed.verdict 0 (add 0 3) = .pass ∧ routed.translate 0 false true 0 = .local 0 ∧ routed.fits 0 3 = false ∧
    routed.fits 0 2 = true ∧ (after (.cntAdd 0 (add 0 3)) routed).field oHold 31 0 = 1 := ⟨idle_routed, by decide +kernel⟩

/-! ## Ranges and streams -/

def open0 (a n : Nat) : Hdr := hdr [(0, opRangeOpen), (16, 3), (64, a), (130, n - 1)]
def close0 (i : Nat) : Hdr := hdr [(0, opRangeClose), (16, 3), (48, i)]

theorem witness_RangesOpenAndClose_open : work.verdict 0 (open0 0 16) = .pass ∧ work.sbValid 0 = false ∧
    (after (.rangeOpen 0 (open0 0 16)) work).sbValid 0 = true ∧ (after (.rangeOpen 0 (open0 0 16)) work).inflight 0 = 1 := by decide +kernel

/-- The lowest entries in force. -/
def ranges (n : Nat) : State := { work with regs := work.regs ++ (List.range n).map fun i => (oSbEnt i, BitVec.ofNat 64 (2 ^ 63 + 3 * 2 ^ 49)) }

theorem witness_RangesOpenAndClose_next : (ranges 2).verdict 0 (open0 0 16) = .pass ∧ (ranges 2).sbValid 1 = true ∧
    (ranges 2).sbValid 2 = false ∧ (after (.rangeOpen 0 (open0 0 16)) (ranges 2)).driven = [.rspA 0 0 0 2, .reqCrd 0] := by decide +kernel

theorem witness_RangesOpenAndClose_full : (ranges 256).verdict 0 (open0 0 16) = .pass ∧
    (List.range 256).all (ranges 256).sbValid = true := by decide +kernel

theorem witness_RangesOpenAndClose_close : (ranges 1).verdict 0 (close0 0) = .pass ∧ (ranges 1).verdict 0 (close0 1) = .pass ∧
    (after (.rangeClose 0 (close0 1)) (ranges 1)).driven = [.rspA 0 11 0 0, .reqCrd 0] ∧
    (((after (.rangeClose 0 (close0 0)) (ranges 1)).port 0).reqs.map fun r => r.phase) = [.closing] := by decide +kernel

/-- View 2: two steps of one row of 128 bytes, 16 words apart. -/
def viewed : State := (work.setReg (oView 2 0) (BitVec.ofNat 64 (2 ^ 63 + 2 * 2 ^ 60 + 127 * 2 ^ 40 + 1))).setReg (oView 2 8) 16
def strm : Hdr := hdr [(0, opStreamOpen), (16, 3), (48, 1), (64, 0), (130, 2), (208, 1)]
def opened : State := after (.streamOpen 0 strm) viewed
def step1 : Hdr := hdr [(0, opStreamStep), (16, 3), (64, 0), (208, 1)]
def sclose : Hdr := hdr [(0, opStreamClose), (16, 3), (208, 1)]

theorem idle_viewed : viewed.Idle 0 :=
  ⟨⟨by decide +kernel, by decide +kernel, by decide +kernel, by decide +kernel⟩, by decide +kernel, by decide +kernel,
    by decide +kernel, by decide +kernel⟩
theorem idle_opened : opened.Idle 0 :=
  ⟨⟨by decide +kernel, by decide +kernel, by decide +kernel, by decide +kernel⟩, by decide +kernel, by decide +kernel,
    by decide +kernel, by decide +kernel⟩

theorem witness_StreamsOpenStepClose_open : viewed.Idle 0 ∧ viewed.verdict 0 strm = .pass ∧
    viewed.regionAt (firstWord strm) = some 0 ∧ ((opened.port 0).stream 1).isOpen = true ∧
    ((opened.port 0).stream 1).steps.length = 2 ∧ opened.inflight 0 = 1 ∧ opened.driven = [.rspA 0 0 0 0, .reqCrd 0] :=
  ⟨idle_viewed, by decide +kernel⟩

theorem witness_StreamsOpenStepClose_step : opened.Idle 0 ∧ opened.verdict 0 step1 = .pass ∧ opened.verdict 0 sclose = .pass ∧
    (((after (.streamStep 0 step1) opened).port 0).reqs.map fun r => r.phase) = [.active] ∧
    (after (.streamClose 0 sclose) opened).inflight 0 = 0 ∧
    (((after (.streamClose 0 sclose) opened).port 0).stream 1).isOpen = false := ⟨idle_opened, by decide +kernel⟩

/-- The tracker has fetched its first step, and both lines are present. -/
def fetched : State := (after (.streamStep 0 step1) opened).modPort 0 fun q => q.setStream 1 { q.stream 1 with
  fetched := [[{ Row.todo 0 [⟨0, 0, 0, false, .done 0 zeroLine⟩] with wasHeld := false }]] }

theorem witness_StreamsPrefetchAndDeliver_fetch : opened.openPartner 0 = true ∧ isMp 0 = true ∧
    ((opened.port 0).stream 1).isOpen = true ∧ ((opened.port 0).stream 1).fetched = [] ∧
    ((after (.streamPrefetch 0 1) opened).groups.map fun e => e.2.waitq.length).foldl (· + ·) 0 = 2 ∧
    (((after (.streamPrefetch 0 1) opened).port 0).stream 1).fetched.length = 2 := by decide +kernel

theorem witness_StreamsPrefetchAndDeliver_deliver : ((fetched.port 0).stepNext 1).isSome = true ∧
    fetched.streamGate ((fetched.port 0).stream 1) = some 1 ∧ ((fetched.port 0).stream 1).ready = true ∧
    (((after (.streamStepDeliver 0 1) fetched).port 0).stream 1).next = 1 := by decide +kernel

/-! ## What ports do not take; beats; the hog cutoff -/

theorem witness_WhatAPortDoesNotTake : work.openPartner 10 = false ∧ (work.setBit (oProg 0) 59).openPartner 0 = false ∧
    (after (.nop 10 nop0) work) = work ∧ (after (.writeDataBeat 10 [] 0) work) = work := by decide +kernel

def broke : State := work.modPort 0 fun q => { q with reqCrd := 0, wdCrd := 0 }
theorem witness_WhatAPortDoesNotTake_credit : broke.openPartner 0 = true ∧ (broke.port 0).reqCrd = 0 ∧ (broke.port 0).wdCrd = 0 ∧
    (after (.nop 0 nop0) broke).bit (oPErr 0) 0 = true ∧ (after (.writeDataBeat 0 [] 0) broke).bit (oPErr 0) 0 = true ∧
    ((after (.nop 0 nop0) (broke.setBit (oHangPort 0) 1)).port 0).fence ≠ .free := by decide +kernel

/-- RP's and TP's links are up, with credits both ways. -/
def linked (s : State) : State :=
  let l : Link := { up := true, txCrd := 4, rxCrd := 64, txq := [], sentNow := false }
  { s with rp := { s.rp with link := l }, tp := { s.tp with link := l } }

theorem witness_WhatAPortDoesNotTake_packets : work.rp.link.up = false ∧ (linked work).open 10 = true ∧ (linked work).pw.entry = none ∧
    pktForm (mkPkt [(0, 3), (4, 1)]) = false ∧ kDiid (mkPkt [(0, 3), (23, 1)]) ≠ (linked work).iid ∧
    (after (.rnack (mkPkt [(0, 3), (23, 1)])) (linked work)).bit oRmtErr 5 = true ∧
    ((linked work).rp.link.rxCrd = 64 ∧ (after (.rnack (mkPkt [(0, 3), (4, 1)])) (linked work)).bit oRmtErr 5 = true) := by
  decide +kernel

theorem witness_WhatAPortDoesNotTake_no_credit :
    let s := { linked work with rp := { work.rp with link := { up := true, txCrd := 0, rxCrd := 0, txq := [], sentNow := false } } }
    s.open 10 = true ∧ s.rp.link.up = true ∧ s.rp.link.rxCrd = 0 ∧ (after (.rnack 3) s).bit (oPErr 10) 0 = true := by decide +kernel

/-- A write of one beat has been accepted on port 0, another of 4,096 bytes. -/
def wr1 : Hdr := hdr [(0, opWr), (16, 3), (64, 0), (140, 127), (156, 6)]
def writing : State := after (.wr 0 wr1) work

theorem witness_BeatTaken : (work.port 0).due = [] ∧ 0 < (work.port 0).wdCrd ∧
    (after (.writeDataBeat 0 [] 0) work).bit (oPErr 0) 1 = true ∧ ((writing.port 0).due.map fun d => d.need) = [1] ∧
    ((after (.writeDataBeat 0 [5] 1) writing).port 0).due = [] ∧
    (((after (.writeDataBeat 0 [5] 1) writing).port 0).reqs.map fun r => r.beats.length) = [1] ∧
    ((after (.writeDataBeat 0 [5] 1) writing).groups.map fun e => e.2.waitq.length).foldl (· + ·) 0 = 1 := by decide +kernel

/-- The lease of the write has run out. -/
def hogged : State := (writing.setFld (oCfg 0) 7 0 1).modPort 0 fun q => { q with lease := 64 }

theorem witness_HogCutoffEndsTheWrite : writing.leaseOut 0 = false ∧ hogged.openPartner 0 = true ∧ (hogged.port 0).due ≠ [] ∧
    64 * hogged.field (oCfg 0) 7 0 ≤ (hogged.port 0).lease ∧ ((hogged.port 0).due.map fun d => d.refused) = [false] ∧
    ((hogged.port 0).due.map fun d => ((hogged.port 0).req d.uid).isSome) = [true] ∧
    (after (.hogCutoff 0) hogged).bit (oPErr 0) 2 = true ∧ ((after (.hogCutoff 0) hogged).port 0).due = [] := by decide +kernel

/-- An accumulate cut off, and a write held for a context miss. -/
def hogHeld : State := ((after (.wr 0 wr1) bound3).setFld (oCfg 0) 7 0 1).modPort 0 fun q => { q with lease := 64 }

theorem witness_HogCutoffEndsTheWrite_held : (hogHeld.port 0).inq.length = 1 ∧ (hogHeld.port 0).reqs = [] ∧
    ((hogHeld.port 0).due.map fun d => d.refused) = [false] ∧ ((after (.hogCutoff 0) hogHeld).port 0).inq = [] ∧
    ((after (.hogCutoff 0) hogHeld).port 0).reqCrd = 32 := by decide +kernel

/-! ## Context misses -/

def missed : State := after (.nop 0 nop0) bound3
/-- Every slot holds a context that a wait pins. -/
def pinnedAll : State := { missed with
  regs := missed.regs.filter (fun e => e.1 < 0x10000) ++ (List.range 64).map (fun i => (oCtxt i 0, BitVec.ofNat 64 (2 ^ 63 + (100 + i) * 2 ^ 48))),
  waiters := (List.range 64).map fun i => ⟨40 + i, 1, 100 + i, 0, false, 0, 0, 9, false, false, 0, none, none, none, false⟩ }

theorem witness_ContextMissServed : (work.port 0).inq = [] ∧ work.rp.held = [] ∧ missed.fwRuns = true ∧ missed.openPartner 0 = true ∧
    ((missed.port 0).inq.map fun w => (w.ended, missed.verdict 0 w.h == .miss)) = [(false, true)] ∧
    (missed.ensureResident 3).2 = true ∧ (missed.boundOf 3).epoch < 2 ^ 32 ∧
    (after (.contextMiss 0) missed).driven = [.rspA 0 0 7 0, .reqCrd 0] := by decide +kernel

theorem witness_ContextMissServed_pinned : pinnedAll.fwRuns = true ∧ pinnedAll.openPartner 0 = true ∧
    ((pinnedAll.port 0).inq.map fun w => pinnedAll.verdict 0 w.h == .miss) = [true] ∧ (pinnedAll.ensureResident 3).2 = false := by
  decide +kernel

/-! ## Events, pulses, releases -/

/-- Ring 0 pulses line 5 of DP0 for room: producer counter 0 at 0, capacity 2, bursts of 1. -/
def ringed : State := work.setReg (oRing 0) (BitVec.ofNat 64 (2 ^ 63 + 2 ^ 62 + 5 * 2 ^ 56 + 1 * 2 ^ 32 + 2 * 2 ^ 16 + 2 ^ 8))

theorem witness_EventsPulsesAndReleases : ringed.tab (oRing 0) 63 63 = 1 ∧ ringed.tab (oRing 0) 62 62 = 1 ∧
    ringed.mark 0 + 1 ≤ (ringed.ringSpan 0).2 ∧ ringed.mark 0 ≤ (ringed.ringSpan 0).1 + 254 ∧
    (after (.dreqPulse 0) ringed).driven = [.dreq 0 5] ∧ (after (.dreqPulse 0) ringed).mark 0 = 1 ∧ work.tab (oRing 0) 63 63 = 0 ∧
    ((after (.overflowEvent 0) (work.modPort 0 fun q => { q with evtOvf := true })).port 0).evtq = [⟨1, 0, 0, 0, none⟩] := by decide +kernel

/-- A range over the first line, closed by the port that opened it; before that a read of the line was held. -/
def ranged : State := after (.rangeOpen 0 (open0 0 16)) work
def rdHeld : State := after (.rd 1 (hdr [(0, opRd), (16, 3), (140, 127)])) ranged
def closing : State := after (.rangeClose 0 (close0 0)) rdHeld

theorem witness_EventsPulsesAndReleases_ranges : ((rdHeld.port 1).reqs.map fun r => r.rows.map fun w => w.held) = [[true]] ∧
    ((closing.closeOf 0).map fun e => (closing.port e.1).released e.2) = some true ∧ ((closing.closeOf 0).map fun e => ((closing.port e.1).before e.2.uid).length) = some 0 ∧
    (after (.rangeCloseInForce 0) closing).sbValid 0 = false ∧
    (((after (.scoreboardRelease 1) (after (.rangeCloseInForce 0) closing)).port 1).reqs.map fun r => r.rows.map fun w => w.held) =
      [[false]] := by decide +kernel

/-! ## Operations that go on later -/

/-- A write with FINAL whose line is stored; a held wait; a held add. -/
def finals : State :=
  let r : Req := { Req.blank 9 (hdr [(0, opWr), (6, 1), (16, 3), (48, 1), (192, 1)]) [] with phase := .active, sync := 1 }
  { work with ports := [(0, { Port.fresh 0 with reqs := [r], laneA := [9] })] }
def heldAdd : State := after (.cntAdd 0 (add 0 3)) routed
def roomNow : State := { heldAdd with counters := [(1, ⟨3, none⟩)] }

theorem witness_AdvancesAndHeldOperations_final : finals.openPartner 0 = true ∧
    ((finals.port 0).reqs.find? (finals.port 0).finalReady).isSome = true ∧ finals.fits 1 1 = true ∧
    ((after (.finalAdvance 0) finals).ctr 1).val = 1 := by decide +kernel

theorem witness_AdvancesAndHeldOperations_add : ((heldAdd.port 0).ringHeld.map fun r => hOpc r.h) = some opCntAdd ∧
    ((heldAdd.port 0).ringHeld.map fun r => r.sync) = some 0 ∧ heldAdd.fits 0 3 = false ∧ roomNow.fits 0 3 = true ∧
    ((after (.ringHoldApply 0) heldAdd).ctr 0).val = 0 ∧ ((after (.ringHoldApply 0) roomNow).ctr 0).val = 3 ∧
    heldAdd.timedQ.find? (fun t => t.held) = none ∧ heldAdd.rp.batches.find? (fun e => e.2.ringHeld) = none := by decide +kernel

theorem witness_AdvancesAndHeldOperations_final_held :
    let s := finals.modPort 0 fun q => { q with reqs := q.reqs.map fun r => { r with phase := .held } }
    ((s.port 0).ringHeld.map fun r => hOpc r.h) = some opWr ∧ s.fits 1 1 = true ∧ ((after (.ringHoldApply 0) s).ctr 1).val = 1 := by
  decide +kernel

def waiting : State :=
  let r : Req := { Req.blank 9 (wait3 2) [] with phase := .held, sync := 3 }
  { one3 with ports := [(0, { Port.fresh 0 with reqs := [r], laneA := [9] })] }

theorem witness_AdvancesAndHeldOperations_wait : (waiting.port 0).heldWait.isSome = true ∧
    (after (.heldWaitAnswer 0) waiting).waiters.length = 2 ∧
    (after (.heldWaitAnswer 0) { waiting with counters := [(3, ⟨2, none⟩)] }).driven = [.rspA 0 0 0 2] := by decide +kernel

theorem witness_WaitsReleasedTogether :
    let s := { one3 with cyc := 1, waiters := [⟨40, 1, 3, 5, false, 3, 3, 2, false, false, 6, none, some 0, some 0, false⟩,
      ⟨41, 1, 3, 5, false, 3, 3, 2, false, true, 6, none, some 0, some 0, false⟩] }
    let t := after (.waitRelease 1) s
    let full := s.modPort 1 fun q => { q with evtq := List.replicate 64 ⟨1, 0, 0, 0, none⟩ }
    (s.dueWaits 1).map (fun w => w.uid) = [40, 41] ∧ t.waiters.map (fun w => (w.uid, w.queued)) = [(41, true)] ∧
    t.driven = [.wake 1 6] ∧ (t.port 1).evtq.map (fun e => (e.code, e.wait)) = [(0, some 41)] ∧ t.dueWaits 1 = [] ∧
    (after (.waitRelease 1) full).waiters = [] ∧ (after (.waitRelease 1) full).bit (oPErr 1) 3 = true := by decide +kernel

/-! ## The owner -/

/-- Window 5 is open, generation 2, 16 units from unit 0 for every sender, context 3, RP's link up. -/
def owned : State := ((linked work).setReg (oWin 5) (BitVec.ofNat 64 (2 ^ 63 + 2 ^ 62 + 3 * 2 ^ 48 + 2 * 2 ^ 32 + 16 * 2 ^ 16))).setReg (oSnd 5) 0

theorem rpTakes (h : Pkt) (f : pktForm h = true) (d : kDiid h = owned.iid) : owned.LinkTakes false h :=
  ⟨by decide +kernel, by decide +kernel, by decide +kernel, by decide +kernel, f, d⟩
theorem rpReady : owned.LinkReady false := ⟨by decide +kernel, by decide +kernel, by decide +kernel, by decide +kernel, by decide +kernel⟩

/-- A data packet of 128 bytes of instance 1 for the last line of the window, and one beyond its end. -/
def seg (ofs : Nat) : Pkt := mkPkt [(0, 1), (8, 1), (42, 5), (50, 2), (72, 7), (85, ofs), (121, 127)]
def stale : Pkt := mkPkt [(0, 1), (8, 1), (42, 5), (50, 3), (72, 7)]
def fullOwner : State := { owned with rp := { owned.rp with batches := (List.range 256).map fun b => (b, { OBatch.empty with siid := 2 }) } }
/-- The answer on the link. -/
def answers (t : State) : List (Nat × Nat) := t.driven.filterMap fun o => match o with
  | .ltx false a _ => some (kPtag a, kCode a)
  | _ => none

theorem witness_OwnerRefusesPackets : owned.LinkTakes false stale ∧ owned.LinkReady false ∧ owned.rp.held = [] ∧
    kSiid stale ≠ owned.iid ∧ owned.ownerCheck stale = .refuse 9 ∧ answers (after (.rwrite stale []) owned) = [(7, 9)] ∧
    (after (.rwrite stale []) owned).field oRmtLate 62 40 = 1 * 256 + 5 ∧ fullOwner.ownerCheck (seg 0) = .pass 0 ∧
    (fullOwner.batchEntry (seg 0)).isNone = true ∧ answers (after (.rwrite (seg 0) []) fullOwner) = [(7, 1)] :=
  ⟨rpTakes _ (by decide +kernel) (by decide +kernel), rpReady, by decide +kernel⟩

theorem witness_OwnerTakesSegments : owned.LinkTakes false (seg (16 * 8192 - 16)) ∧ owned.ownerCheck (seg (16 * 8192 - 16)) = .pass 0 ∧
    (owned.batchEntry (seg (16 * 8192 - 16))).isSome = true ∧
    (owned.batchEntry (seg (16 * 8192 - 16))).map (fun e => e.2.segCode 0 (seg (16 * 8192 - 16))) = some 0 ∧
    answers (after (.rwrite (seg (16 * 8192 - 16)) []) owned) = [(7, 0)] ∧
    ((after (.rwrite (seg (16 * 8192 - 16)) []) owned).groups.map fun e => e.2.waitq.map fun a => (a.agent, a.la)) = [[(10, 8191)]] ∧
    owned.segCode 0 (seg (16 * 8192)) = 5 ∧ answers (after (.rwrite (seg (16 * 8192)) []) owned) = [(7, 5)] ∧
    (after (.rwrite (seg (16 * 8192)) []) owned).rp.batches.map (fun e => (e.2.done, e.2.worst)) = [(1, 5)] :=
  ⟨rpTakes _ (by decide +kernel) (by decide +kernel), by decide +kernel⟩

/-- A closing packet for one data packet that adds to counter 1 of the context, and signals that set its counter 1 and flag 2. -/
def closeP : Pkt := mkPkt [(0, 1), (4, 1), (8, 1), (42, 5), (50, 2), (72, 8)]
def closeD (k fadd : Nat) : List Byte := bytesLE 4 k ++ bytesLE 2 1 ++ bytesLE 2 fadd
def sig (op id : Nat) : Pkt := mkPkt [(0, 2), (4, if op = 0 then 0 else 1), (8, 1), (42, 5), (50, 2), (69, op), (72, 9), (85, id)]

theorem witness_OwnerHoldsClosingsAndSignals : owned.LinkTakes false closeP ∧ owned.LinkTakes false (sig 1 2) ∧ owned.ownerCheck closeP = .pass 0 ∧
    answers (after (.closingPacket closeP (closeD 1 0)) owned) = [(8, 6)] ∧
    answers (after (.closingPacket closeP (closeD 1 4)) owned) = [] ∧
    (after (.closingPacket closeP (closeD 1 4)) owned).rp.batches.map (fun e => e.2.closing.isSome) = [true] ∧
    owned.translate 0 true false 2 = .local 2 ∧ kBit4 (sig 1 2) = (kOp (sig 1 2) != 0) ∧
    answers (after (.rsig (sig 1 2) (bytesLE 8 100 ++ bytesLE 8 0) 50) owned) = [(9, 0)] ∧
    (after (.rsig (sig 1 2) (bytesLE 8 100 ++ bytesLE 8 0) 50) owned).timedQ.map (fun q => q.due) = [100] ∧
    (after (.rsig (sig 1 2) (bytesLE 8 50 ++ bytesLE 8 0) 50) owned).bit oSyncErr 1 = true ∧
    (after (.rsig (sig 1 2) (bytesLE 8 2651 ++ bytesLE 8 0) 50) owned).timedQ.map (fun q => q.due) = [2650] ∧
    owned.translate 0 true false 4 = .bad ∧ answers (after (.rsig (sig 1 4) (bytesLE 8 100) 50) owned) = [(9, 10)] :=
  ⟨rpTakes _ (by decide +kernel) (by decide +kernel), rpTakes _ (by decide +kernel) (by decide +kernel), by decide +kernel⟩

/-! ## The sender -/

/-- A remote write of one row of 128 bytes to window 5 of instance 9, generation 2, whose beat has come. -/
def wrFar : Hdr := hdr [(0, opWr), (13, 1), (16, 3), (64, 9 * 2 ^ 51 + 5 * 2 ^ 43 + 2 * 2 ^ 27), (140, 127), (156, 0)]
def remote : State := after (.writeDataBeat 0 [5] 1) (after (.wr 0 wrFar) (linked work))
/-- A cycle has passed since a packet was driven. -/
def nextCycle (s : State) : State := s.setLink false { s.link false with sentNow := false }
def sent : State := nextCycle (after (.rwriteSend 0) remote)

theorem witness_RemoteWritesAndSignalsSent_write : (work.port 0).remoteNext = none ∧ remote.openPartner 0 = true ∧ remote.open 10 = true ∧
    ((remote.port 0).remoteNext.map fun r => (r.segs, r.segCount, (r.segment (widthW 0) 0 0).isSome)) = some (0, 1, true) ∧
    remote.sendRoom = true ∧ (remote.useRec 0 9 5).isSome = true ∧
    (sent.rp.sendBuf.map fun w => (kDiid w.h, kWin w.h, kGen w.h, kDlen w.h)) = [(9, 5, 2, 127)] := by decide +kernel

/-- A counter add routed to counter 17 of instance 9, and one routed to this instance itself. -/
def routing : State := after (.cntAdd 0 (hdr [(0, opCntAdd), (16, 3), (48, 5), (64, 4)]))
  ((linked work).setReg (oRoute 1) (BitVec.ofNat 64 (2 ^ 63 + 9 * 2 ^ 44 + 17)))
def routingOwn : State := after (.cntAdd 0 (hdr [(0, opCntAdd), (16, 3), (48, 5), (64, 4)]))
  ((linked work).setReg (oRoute 1) (BitVec.ofNat 64 (2 ^ 63 + 17)))

theorem witness_RemoteWritesAndSignalsSent_signal : routing.openPartner 0 = true ∧ routing.open 10 = true ∧ routing.sendRoom = true ∧
    ((routing.port 0).routedNext.map fun r => fld (r.sync - 65536) 58 44) = some 9 ∧
    ((after (.rsigSend 0 5) routing).rp.sendBuf.map fun w => (kDiid w.h, kRsid w.h, natLE (w.data.take 8), natLE (w.data.drop 8))) =
      [(9, 17, 1005, 4)] ∧
    ((routingOwn.port 0).routedNext.map fun r => fld (r.sync - 65536) 58 44) = some 0 ∧
    (after (.rsigSend 0 5) routingOwn).rp.sendBuf = [] ∧ (after (.rsigSend 0 5) routingOwn).bit oRmtErr 3 = true := by decide +kernel

/-- An answer to the packet of `wrFar` of generation g, and one to the routed operation. -/
def rnackGen (g tag code : Nat) : Pkt := mkPkt [(0, 3), (8, 9), (42, 5), (50, g), (72, tag), (81, code)]
def rnack (tag code : Nat) : Pkt := rnackGen 2 tag code
def rnackSig (tag code : Nat) : Pkt := mkPkt [(0, 3), (8, 9), (72, tag), (81, code)]
def retrying : State := { after (.rnack (rnack 0 1)) sent with turn := 1 }
def signalled : State := after (.rsigSend 0 5) routing
def stored (s : State) (h : Pkt) : Bool := (s.rp.sendBuf.find? fun w => w.answeredBy h).isSome

theorem witness_SenderLearnsAnswers : sent.LinkTakes false (rnack 0 1) ∧ sent.LinkReady false ∧
    stored sent (rnack 3 0) = false ∧ stored sent (rnackGen 3 0 0) = false ∧ stored sent (rnack 0 0) = true ∧
    (after (.rnack (rnackGen 3 0 0)) sent).rp.sendBuf = sent.rp.sendBuf ∧
    (sent.rp.sendBuf.map fun w => ((sent.port 0).req (w.uid.getD 99)).isSome) = [true] ∧
    (after (.rnack (rnack 0 0)) sent).rp.sendBuf = [] ∧ answers (after (.rnack (rnack 0 0)) sent) = answers sent ∧
    (after (.rnack (rnackSig 0 5)) signalled).bit oRmtErr 3 = true ∧
    (retrying.rp.sendBuf.map fun w => w.retryAt) = [some 1] ∧ (after (.retryResend 0) retrying).field oResend 31 0 = 1 ∧
    (after (.responseTimeout 0) { sent with turn := 1023 }) = { sent with turn := 1023 } ∧
    (after (.responseTimeout 0) { sent with turn := 1024 }).bit oRmtErr 1 = true ∧
    (after (.responseTimeout 0) { signalled with turn := 1024 }).bit oRmtErr 4 = true ∧
    (after (.linkLost false (rnack 0 1)) sent).driven.length = sent.driven.length + 1 ∧
    (after (.linkLost false (mkPkt [(0, 1), (23, 9)])) sent).field oResend 31 0 = 1 :=
  ⟨⟨by decide +kernel, by decide +kernel, by decide +kernel, by decide +kernel, by decide +kernel, by decide +kernel⟩,
    ⟨by decide +kernel, by decide +kernel, by decide +kernel, by decide +kernel, by decide +kernel⟩, by decide +kernel⟩

/-- A held closing packet for k packets with FADD 4, one of them done with a code. -/
def closingOf (k code : Nat) : State := (after (.closingPacket closeP (closeD k 4)) owned).batchDone 0 code
/-- Counter 1 of context 3 consumes from a ring whose producer is at 0. -/
def ringOf (s : State) : State := s.setReg (oRing 0) (BitVec.ofNat 64 (2 ^ 63 + 1 * 2 ^ 32 + 3 * 2 ^ 16 + 1))

theorem witness_BatchesAndSignalsApplied_batches : (after (.batchClose 0) (closingOf 2 0)) = closingOf 2 0 ∧
    (closingOf 1 0).rpHeld = false ∧ (closingOf 1 0).slotOf ((closingOf 1 0).winCtx 5) = some 0 ∧
    (closingOf 1 0).translate 0 false false 1 = .local 1 ∧ (closingOf 1 0).fits 1 4 = true ∧
    ((after (.batchClose 0) (closingOf 1 0)).ctr 1).val = 4 ∧ answers (after (.batchClose 0) (closingOf 1 0)) = [(8, 0)] ∧
    ((after (.batchClose 0) (closingOf 1 12)).ctr 1).val = 4 ∧
    ((after (.batchClose 0) (closingOf 1 5)).ctr 1).val = 0 ∧ answers (after (.batchClose 0) (closingOf 1 5)) = [(8, 5)] ∧
    (after (.batchTimeout 0) { closingOf 2 0 with turn := 511 }) = { closingOf 2 0 with turn := 511 } ∧
    (after (.batchTimeout 0) { closingOf 2 0 with turn := 512 }).bit oRmtErr 2 = true := by decide +kernel

theorem witness_BatchesAndSignalsApplied_ring : (ringOf (closingOf 1 0)).fits 1 4 = false ∧
    (after (.batchClose 0) (ringOf (closingOf 1 0))).field oHold 31 0 = 1 ∧
    ((after (.batchClose 0) (ringOf (closingOf 1 0))).ctr 1).val = 0 := by decide +kernel

def signalQ (op : Nat) : State := after (.rsig (sig op 1) (bytesLE 8 100 ++ bytesLE 8 4) 50) owned

theorem witness_BatchesAndSignalsApplied_signals : ((signalQ 0).sample 99).dueSignals = [] ∧ ((signalQ 0).sample 100).dueSignals.length = 1 ∧
    (signalQ 0).rpHeld = false ∧ (((signalQ 0).timedQ.map fun q => (signalQ 0).sigPhys q) = [some 1]) ∧
    ((after (.rsigApply 100) (signalQ 0)).ctr 1).val = 4 ∧ ((after (.rsigApply 99) (signalQ 0)).ctr 1).val = 0 ∧
    ((after (.rsigApply 100) (signalQ 1)).flg 1).val = true ∧ (ringOf (signalQ 0)).fits 1 4 = false ∧
    ((after (.rsigApply 100) (ringOf (signalQ 0))).timedQ.map fun q => q.held) = [true] := by decide +kernel
/-! ## Links -/

def waitingTx (s : State) : State := s.setLink false { s.link false with txCrd := 0, txq := [(rnack 1 0, []), (rnack 2 0, [])] }

theorem witness_LinksChange : work.hasPort 11 = true ∧ (work.link true).up = false ∧ work.ps = 0 ∧ (linked work).ps = 0 ∧ (linked work).rp.link.up = true ∧
    (after (.linkUpChange false true) work).rp.link.rxCrd = 64 ∧ (after (.linkUpChange false false) sent).rp.sendBuf = [] ∧
    (after (.linkUpChange false false) sent).bit oRmtErr 0 = true ∧ ((linked work).link true).txq = [] ∧
    ((after (.linkTxCredit true) (linked work)).link true).txCrd = 5 ∧ (waitingTx (linked work)).linkCycle = true ∧
    answers (after (.linkTxCredit false) (waitingTx (linked work))) = [(1, 0)] ∧
    (after (.linkUpChange true false) (linked work)).twin = 0 := by decide +kernel

/-! ## The pair -/

/-- Region 0 is a twin region, instance 9 is the peer, the pair is UP. -/
def pair : State := (linked { region 32 ready with bound := [(3, ctx3)] }).setReg oTwinStat (BitVec.ofNat 64 (2 ^ 62 + 9))
def down (s : State) : State := after (.linkUpChange true false) s

theorem tpTakes (h : Pkt) (f : pktForm h = true) (d : kDiid h = pair.iid) : pair.LinkTakes true h :=
  ⟨by decide +kernel, by decide +kernel, by decide +kernel, by decide +kernel, f, d⟩
theorem tpReady : pair.LinkReady true := ⟨by decide +kernel, by decide +kernel, by decide +kernel, by decide +kernel, by decide +kernel⟩

def tw (la : Nat) : Pkt := mkPkt [(0, 8), (8, 9), (46, la), (69, 3)]
def tf (la : Nat) : Pkt := mkPkt [(0, 10), (8, 9), (46, la), (69, 3)]
/-- What went out on TP: type, code, tag. -/
def tpOut (t : State) : List (Nat × Nat × Nat) := t.driven.filterMap fun o => match o with
  | .ltx true a _ => some (kType a, kTcode a, kTtag a)
  | _ => none
def queued (t : State) : List (List (Nat × Nat)) := (t.groups.map fun e => e.2.waitq.map fun a => (a.agent, a.la)).filter fun l => l ≠ []

theorem witness_LinksChange_pair : pair.twin = 1 ∧ (down pair).twin = 2 ∧ (down pair).bit oTwinErr 0 = true ∧
    tpOut (after (.linkLost true (mkPkt [(0, 9), (23, 9), (69, 3)])) pair) = [(9, 0, 3)] ∧
    (after (.linkLost true (mkPkt [(0, 9), (23, 9), (69, 3)])) pair).field oTwinOut 47 16 = 1 ∧
    queued (after (.linkLost true (mkPkt [(0, 11), (23, 9), (46, 8191)])) pair) = [[(11, 8191)]] := by decide +kernel

theorem witness_PeerWritesAndReadsServed : pair.LinkTakes true (tw 8191) ∧ pair.LinkTakes true (tf 8191) ∧ pair.LinkReady true ∧
    pair.fromPeer (tw 8191) = true ∧ pair.fromPeer (mkPkt [(0, 8), (8, 8)]) = false ∧ pair.regionAt (8191 * 16) = some 0 ∧
    pair.regionAt (8192 * 16) = none ∧ pair.rgnTwin 0 = true ∧ pair.dead (pair.place 0 8191).1 = false ∧ pair.rgnLock 0 = false ∧
    pair.held (sliceOf (pair.place 0 8191).1) = false ∧ queued (after (.twrite (tw 8191) [1]) pair) = [[(11, 8191)]] ∧
    tpOut (after (.twrite (tw 8192) [1]) pair) = [(9, 3, 3)] ∧
    tpOut (after (.twrite (tw 8191) [1]) (pair.setFld (oRgn 0 0) 62 62 1)) = [(9, 1, 3)] ∧
    queued (after (.tfetch (tf 8191)) pair) = [[(11, 8191)]] ∧ tpOut (after (.tfetch (tf 8192)) pair) = [(11, 3, 3)] :=
  ⟨tpTakes _ (by decide +kernel) (by decide +kernel), tpTakes _ (by decide +kernel) (by decide +kernel), tpReady, by decide +kernel⟩

/-- A write's line awaits its TACK under tag 3, a read's line its copy under tag 4. -/
def awaits : State :=
  let ln (la t : Nat) : TAwait := {
    ttag := t, fetch := t == 4, h := if t = 4 then tf la else tw la, data := [1], la := la,
    lb := (pair.place 0 la).1, ix := (pair.place 0 la).2, dest := .req 0 t 0 0, sent := true, since := 0, retryAt := none,
    noticed := false, redo := none, copy := none, fx := (false, false) }
  let rl (la t : Nat) : RowLine := ⟨la, (pair.place 0 la).1, (pair.place 0 la).2, false, if t = 4 then .repair else .mirror⟩
  let rq (o la t : Nat) : Req := { Req.blank t (hdr [(0, o), (16, 3), (64, 16 * la), (140, 127)]) [] with
    phase := .active, rows := [Row.todo (128 * la) [rl la t]], rowLen := 128 }
  { (pair.modPort 0 fun q => { q with reqs := [rq opWr 600 3, rq opRd 7 4], laneA := [3], laneR := [4] }) with
    tp := { pair.tp with await := [ln 600 3, ln 7 4] } }
def tack (code : Nat) : Pkt := mkPkt [(0, 9), (8, 9), (46, 600), (69, 3), (79, code)]
def tdata (code : Nat) : Pkt := mkPkt [(0, 11), (8, 9), (46, 7), (69, 4), (79, code)]
def wtags (t : State) : List (Nat × Option Nat) := t.tp.await.map fun w => (w.ttag, w.retryAt)

theorem witness_PeerAnswersTaken_tack : awaits.LinkTakes true (tack 12) ∧ awaits.fromPeer (tack 12) = true ∧
    (awaits.awaited (tack 12) false).isSome = true ∧ wtags (after (.tack (tack 1)) awaits) = [(3, some 1), (4, none)] ∧
    ((awaits.port 0).req 3).isSome = true ∧ wtags (after (.tack (tack 0)) awaits) = [(4, none)] ∧
    (after (.tack (tack 0)) awaits).tp.dirty = [] ∧ (after (.tack (tack 3)) awaits).tp.dirty = [(1, true)] ∧
    (after (.tack (tack 3)) awaits).bit oTwinErr 2 = true :=
  ⟨⟨by decide +kernel, by decide +kernel, by decide +kernel, by decide +kernel, by decide +kernel, by decide +kernel⟩, by decide +kernel⟩

theorem witness_PeerAnswersTaken_tdata : awaits.LinkTakes true (tdata 0) ∧ awaits.fromPeer (tdata 0) = true ∧
    (awaits.awaited (tdata 0) true).map (fun w => (awaits.dead w.lb, w.noticed)) = some (false, false) ∧
    ((after (.tdata (tdata 0) [9]) awaits).image (awaits.home (pair.place 0 7).1 (pair.place 0 7).2)).data.headD 0 = 9 ∧
    (after (.tdata (tdata 0) [9]) awaits).field oRepair 31 0 = 1 ∧
    (after (.tdata (tdata 3) []) awaits).mem = [] ∧ (after (.tdata (tdata 3) []) awaits).field oRepair 63 32 = 1 :=
  ⟨⟨by decide +kernel, by decide +kernel, by decide +kernel, by decide +kernel, by decide +kernel, by decide +kernel⟩, by decide +kernel⟩

def retried : State := { after (.tack (tack 1)) awaits with turn := 1 }
theorem witness_PeerAnswersTaken_later : retried.open 11 = true ∧ wtags (after (.twinRetryResend 3) retried) = [(3, none), (4, none)] ∧
    tpOut (after (.twinRetryResend 3) retried) = [(8, 0, 3)] ∧
    retried.LinkReady true ∧ after (.twinTimeout 4) { awaits with turn := 63 } = { awaits with turn := 63 } ∧
    (after (.twinTimeout 4) { awaits with turn := 64 }).twin = 2 ∧
    wtags (after (.twinTimeout 4) { awaits.setReg oTwinStat 0 with turn := 64 }) = [(3, none)] :=
  ⟨by decide +kernel, by decide +kernel, by decide +kernel,
    ⟨by decide +kernel, by decide +kernel, by decide +kernel, by decide +kernel, by decide +kernel⟩, by decide +kernel⟩

/-! ## Control messages -/

def msg (ty la : Nat) : Pkt := mkPkt [(0, ty), (4, 1), (8, 9), (46, la), (69, 5)]
/-- Region n: one unit from unit b. -/
def rgnMsg (n b : Nat) : List Byte := regionPayload n (2 ^ 32 + b) (32 + 7 * 2 ^ 32 + 0x1FFF * 2 ^ 48) 0 0
/-- Region 1 is a twin region that overlays no DEAD bank; it is one unit. -/
def cleared : State := (pair.defineRegion 1 { span := 2 ^ 32 + 16, attr := 32, aux := 0 })

theorem witness_PeerRegionMessages : pair.LinkTakes true (msg 10 0) ∧ pair.LinkReady true ∧ pair.fromPeer (msg 10 0) = true ∧
    tpOut (after (.regionMessage (msg 10 0) (rgnMsg 1 16)) pair) = [(11, 0, 5)] ∧
    (after (.regionMessage (msg 10 0) (rgnMsg 1 16)) pair).rgnSize 1 = 1 ∧
    tpOut (after (.regionMessage (msg 10 0) (rgnMsg 1 15)) pair) = [(11, 5, 5)] ∧
    tpOut (after (.regionMessage (msg 10 0) (regionPayload 1 (2 ^ 32 + 16) 14 0 0)) pair) = [(11, 6, 5)] ∧
    tpOut (after (.deleteMessage (msg 10 0) (rgnMsg 0 0)) pair) = [(11, 0, 5)] ∧
    (after (.deleteMessage (msg 10 0) (rgnMsg 0 0)) pair).rgnValid 0 = false ∧
    tpOut (after (.deleteMessage (msg 10 0) (rgnMsg 1 0)) pair) = [(11, 5, 5)] ∧
    tpOut (after (.deleteMessage (msg 10 0) (rgnMsg 0 0)) (pair.setFld (oRgn 0 24) 15 0 1)) = [(11, 11, 5)] ∧
    cleared.rgnValid 1 = true ∧ cleared.rgnBusy 1 = false ∧ cleared.rgnLock 1 = false ∧ cleared.memOk = true :=
  ⟨tpTakes _ (by decide +kernel) (by decide +kernel), tpReady, by decide +kernel⟩

/-- This instance's own DELETE of region 0, command 7, waits for the peer. -/
def deleting : State := { pair with tp := { pair.tp with regionCmd := some (7, 0, msgDelete) }, fw := { pair.fw with running := [⟨7, 0x09⟩] } }
theorem witness_PeerRegionMessages_answer : deleting.LinkTakes true (msg 11 0) ∧ kTcode (msg 11 0) = 0 ∧
    (after (.deleteMessage (msg 11 0) []) deleting).rgnValid 0 = false ∧ (after (.deleteMessage (msg 11 0) []) deleting).fw.running = [] :=
  ⟨⟨by decide +kernel, by decide +kernel, by decide +kernel, by decide +kernel, by decide +kernel, by decide +kernel⟩, by decide +kernel⟩

/-- Command 7 waits for the BIND of instance 9. -/
def binding : State := { linked ready with tp := { (linked ready).tp with binding := some (7, 9, 0) }, fw := { ready.fw with running := [⟨7, 0x60⟩] } }
/-- The BIND of an instance: its number, slices and state. -/
def bindData (iid slices st : Nat) : List Byte :=
  bytesLE 8 msgBind ++ bytesLE 8 0 ++ bytesLE 8 (2 ^ 27 + slices) ++ bytesLE 8 iid ++ bytesLE 1 st

theorem witness_PeerBindingMessages_bind : binding.LinkTakes true (msg 10 0) ∧ binding.twin = 0 ∧ binding.identityOk (bindData 9 8 1) 9 = true ∧
    binding.identityOk (bindData 9 7 1) 9 = false ∧ bitAt ((bindData 9 8 1).getD 32 0).toNat 0 = true ∧
    (after (.bindMessage (msg 10 0) (bindData 9 8 1)) binding).twin = 1 ∧ (after (.bindMessage (msg 10 0) (bindData 9 8 1)) binding).peer = 9 ∧
    (after (.bindMessage (msg 10 0) (bindData 9 7 1)) binding).twin = 0 ∧
    (after (.bindMessage (msg 10 0) (bindData 9 7 1)) binding).fw.running = [] :=
  ⟨⟨by decide +kernel, by decide +kernel, by decide +kernel, by decide +kernel, by decide +kernel, by decide +kernel⟩, by decide +kernel⟩

/-- The source of a resync with chunks 0 and 1 still to fetch. -/
def source : State := { pair with tp := { pair.tp with resync := some ⟨none, [0, 1], [], 0, 0, false⟩, dirty := [(1023, true)] } }

theorem witness_PeerBindingMessages : pair.LinkTakes true (msg 10 1) ∧ pair.LinkTakes true (msg 11 1) ∧
    (after (.unbindMessage (msg 10 0) []) pair).twin = 0 ∧ tpOut (after (.unbindMessage (msg 10 0) []) pair) = [(11, 0, 5)] ∧
    (after (.dirtyMessage (msg 10 1) []) pair).twin = 3 ∧ tpOut (after (.dirtyMessage (msg 10 1) []) pair) = [(11, 0, 5)] ∧
    source.fromPeer (msg 11 1) = true ∧ (after (.dirtyMessage (msg 11 1) [0, 2]) source).tp.dirty = [(9, true), (1023, true)] ∧
    (after (.dirtyMessage (msg 11 1) [0, 2]) source).tp.resync = some ⟨none, [1], [], 0, 0, false⟩ ∧
    (after (.downMessage (msg 10 0) []) pair).twin = 2 :=
  ⟨tpTakes _ (by decide +kernel) (by decide +kernel), tpTakes _ (by decide +kernel) (by decide +kernel), by decide +kernel⟩

/-! ## The turn -/

/-- The last cycle of a turn; group 0's swap is armed. -/
def lastCycle : State := { ready.setFld oSwap 0 0 1 with cyc := 4095, groups := [(0, { Group.fresh with swapArmed := true, grantCount := 64 })] }
theorem witness_TurnBoundaryBeginsATurn : after (.turnBoundary 9 ⟨[], []⟩ 0) { lastCycle with cyc := 4094 } = { lastCycle with cyc := 4094 } ∧
    lastCycle.build.ok = true ∧ lastCycle.cyc = 4095 ∧ lastCycle.ps ≤ 1 ∧ lastCycle.pins.poreset = false ∧
    lastCycle.endCycle.bit oSwap 0 = true ∧ (lastCycle.endCycle.group 0).swapArmed = true := by decide +kernel
/-! ## Power -/

/-- Phase 0 lets domain 1 range from point 4 to point 6; its counts are due. -/
def timed (low boost : Nat) : State := ((ready.setFld (oPhaseA 0) 14 12 4).setFld (oPhaseA 0) 17 15 6).modDom 1
  fun q => { q with lowTurns := low, boostTurns := boost }
def gated : State := { ready.setFld oGate 11 8 2 with pw := { ready.pw with stack := [.gate 2, .gate 3], calm := 4 } }

theorem witness_PowerTimers : gated.ps = 0 ∧ gated.build.ok = true ∧ gated.pw.tripped = false ∧ (after .throttleUndo gated).gateOf 2 = 1 ∧
    (after .throttleUndo gated).pw.stack = [.gate 3] ∧ after .throttleUndo ready = ready ∧ (timed 16 0).locked 1 = false ∧
    (timed 16 0).phaseField 1 1 < (timed 16 0).phaseTarget 1 ∧ ((timed 16 0).dom 1).pllWait = 0 ∧
    (after (.idleLowering 1) (timed 16 0)).tgtOf 1 = 4 ∧ after (.idleLowering 1) (timed 15 0) = timed 15 0 ∧
    (timed 0 16).phaseTarget 1 < min ((timed 0 16).phaseField 1 2) ((timed 0 16).opMax 1) ∧ (after (.boost 1) (timed 0 16)).tgtOf 1 = 6 ∧
    after (.boost 1) (timed 0 15) = timed 0 15 := by decide +kernel

def armed (t1 t2 idle : Nat) : State := (ready.setReg oArm (BitVec.ofNat 64 (t2 * 2 ^ 16 + t1))).setFld oIdle 31 0 idle
def entering (k : Nat) : State := ready.setEntry (some { target := 2, step := k, cmd := none, retain := 0 })
def inPs (k : Nat) : State := ready.setFld oPwrStat 63 62 k

theorem witness_PowerStatesEnteredAndLeft : (armed 3 9 9).fwReady = true ∧ (armed 3 9 9).quietNow = true ∧ (armed 3 9 9).pw.entry = none ∧
    (after .idleEntry (armed 3 9 9)).pw.entry = some ⟨2, 1, none, 0⟩ ∧ (after .idleEntry (armed 3 9 8)).pw.entry = some ⟨1, 1, none, 0⟩ ∧
    (after .idleEntry (armed 3 9 2)).pw.entry = none ∧ wakes (.cpReg false 0x1FF8) = false ∧ wakes (.cpReg true 0) = true ∧
    (after (.wakeEvent .irq) (entering 4)).pw.entry = none ∧ (after (.wakeEvent .irq) (entering 4)).field oAborts 31 0 = 1 ∧
    (after (.wakeEvent .irq) (entering 5)).pw.wakeLatched = true ∧ (after (.wakeEvent .req) (inPs 1)).ps = 0 ∧
    (after (.wakeEvent .req) (inPs 1)).bit oNote 9 = true ∧ (inPs 2).vidAt ((inPs 2).runCode 0) = true ∧ (inPs 2).fw.hung = 0 ∧
    (inPs 2).build.ok = true ∧ (inPs 2).pins.vaOk = true := by decide +kernel

/-! ## Hangs -/

def stalled (p : Nat) : State := work.setFld (oProg p) 15 0 4096
theorem witness_HangsReported : (stalled 0).hasPort 0 = true ∧ (stalled 0).field oHangCfg 15 0 = 4096 ∧
    (stalled 0).field (oProg 0) 15 0 = 4096 ∧ ((stalled 0).port 0).hangRep = false ∧
    ((after (.portHang 0) (stalled 0)).port 0).evtq.map (fun e => (e.code, e.info)) = [(3, 0x10000000)] ∧
    (after (.portHang 12) (stalled 12)).bit oHangPorts 12 = true ∧
    ((after (.portHang 0) ((stalled 0).setBit (oHangPort 0) 0)).port 0).fence ≠ .free ∧ after (.portHang 1) (stalled 0) = stalled 0 := by
  decide +kernel

/-- The context of slot 0 has stalled with a wait of port 1. -/
def stuckCtx : State := { one3 with ctxStall := [(0, 4096)] }
/-- Every heartbeat has stood still for n turns. -/
def stood (n : Nat) : State := { ready with fw := { ready.fw with stood := [(0, n), (1, n), (2, n), (3, n)] } }
theorem witness_HangsReported_context : stuckCtx.bit oHangCfg 16 = true ∧ (after (.contextHang 0) stuckCtx).bit oHangSlots 0 = true ∧
    ((after (.contextHang 0) stuckCtx).port 1).evtq.map (fun e => (e.code, e.ctx)) = [(3, 3)] ∧
    after (.contextHang 0) work = work ∧ (stood 256).loaded = true ∧ [0, 1, 2, 3].all (stood 256).hangFound = true ∧
    after (.ccHang 15) (stood 255) = stood 255 ∧ (after (.ccHang 15) (stood 256)).fwRuns = false ∧
    (after (.ccHang 15) (stood 256)).field (oKeep 28) 63 58 = 39 := by decide +kernel

/-! ## Groups -/

def readOf (a : Access) (s : State) : State := s.modGroup 0 fun q => { q with parked := [a] }
/-- A read, and a write of port 0 at line 0 of bank 0. -/
def rdAcc : Access := ⟨0, 0, 0, 0, none, 0, 0, false, false, none, .read, .req 0 9 0 0⟩
def wrAcc : Access := ⟨0, 0, 0, 0, none, 0, 0, false, false, none, .write ((List.range 128).map fun i => (i, 7)) false false, .req 0 9 0 0⟩
def oneReq (o : Nat) : State := work.modPort 0 fun q => { q with reqs :=
  [{ Req.blank 9 (hdr [(0, o), (16, 3), (140, 127)]) [] with phase := .active, rows := [Row.todo 0 [⟨0, 0, 0, false, .sent⟩]], rowLen := 128 }] }
def granted (o : Nat) (a : Access) : State := after (.bankGrant 0 []) (readOf a (oneReq o))

theorem witness_GatesAndGrants : (readOf rdAcc (oneReq opRd)).mayGrant 0 = true ∧ (granted opRd rdAcc).mayGrant 0 = false ∧
    ((readOf rdAcc (oneReq opRd)).slice 0).migr = none ∧ ((readOf rdAcc (oneReq opRd)).group 0).parked = [rdAcc] ∧
    rdAcc.op.merges = false ∧ wrAcc.op.merges = false ∧ (readOf rdAcc (oneReq opRd)).mirrorRoom rdAcc = true ∧
    (readOf rdAcc (oneReq opRd)).dead 0 = false ∧ judge ((readOf rdAcc (oneReq opRd)).image (arrHome 0 0)) 0 = .blank ∧
    (((granted opRd rdAcc).group 0).grantCount, ((granted opRd rdAcc).group 0).granted) = (1, true) := by decide +kernel

theorem witness_GatesAndGrants_write :
    judge ((granted opWr wrAcc).image ((granted opWr wrAcc).home 0 0)) 0 = .good (List.replicate 128 7) [] := by decide +kernel

/-- An uncorrectable line at line 0: two bits of its first byte have flipped. -/
def broken : State := work.setImage (arrHome 0 0) {
  data := 4 :: List.replicate 127 7, chk := checkBytes (List.replicate 128 7) 16, outer := 0, valid := true, poison := false }
theorem witness_GatesAndGrants_broken : (match judge (broken.image (arrHome 0 0)) 0 with | .ueIn _ _ => true | _ => false) = true ∧
    broken.rgnTwin 0 = false := by decide +kernel

def addAcc : Access := ⟨0, 0, 0, 0, none, 0, 0, false, false, none, .add32 [(0, 0x3F800000)], .req 0 9 0 0⟩
def adding : State := work.modGroup 0 fun q => { q with waitq := [addAcc] }
theorem witness_GatesAndGrants_gate : adding.mayGrant 0 = true ∧ (adding.group 0).gateWait = 0 ∧ adding.frozen 0 = false ∧
    (adding.group 0).total % 8 < 8 - adding.field oGate 11 8 ∧ addAcc.op.isAdd = true ∧ adding.rampRoom 0 = true ∧
    adding.linkTurn 0 = true ∧ ((after (.accumulateGateAdmit 0) adding).group 0).arriving.length = 1 ∧
    (let s := after (.accumulateGateAdmit 0) adding; after (.accumulateGateAdmit 0) s = s) := by decide +kernel

/-! ## Shavings, retirement, slices -/

/-- Every group's table names BT; the walk's period is over and its engine runs. -/
def walking : State := (((ready.setFld oBtCfg 15 0 16).setReg (oSlotAct 0 3) 0xEFFFFFFFFFFFFFFF).modSlice 0 fun q => { q with stopped := false })
/-- A shaving of bank 0 from line 0, at step k with accesses left; its lines to n are redirected. -/
def shavingAt (k left n : Nat) : Shaving := ⟨0, 0, 0, k, left, ⟨[], []⟩, 0, n, false, false, false, false⟩
def shaved (k : Nat) (s : State) : State := s.modSlice 0 fun q => { q with shaving := some (shavingAt k 0 64) }
/-- The access of such a shaving stands alone at its group, in the group's BT slot. -/
def engaged (k left n : Nat) : State :=
  let s := walking.modSlice 0 fun q => { q with shaving := some (shavingAt k left n) }
  s.modGroup 0 fun q => { q with parked := [s.shavingAccess 0 (shavingAt k left n) 0], grantCount := 63 }
def nothing : ReadBack := ⟨[], []⟩

theorem witness_ShavingsRun : walking.engineFree 0 = true ∧ walking.periodOver 0 = true ∧ (walking.slice 0).test = none ∧
    walking.btSlot 0 = true ∧ walking.dead 0 = false ∧
    ((after (.shavingStart 0) walking).slice 0).shaving.map (fun h => (h.lb, h.step)) = some (0, 1) ∧
    (after (.shavingStart 0) (walking.setReg (oRemap 0) 0x20000)).field (oBtSl 0) 58 46 = 1 ∧
    (after (.shavingStart 0) (walking.setReg (oRemap 0) 0x20000)).field (oBtSl 0) 45 32 = 1 ∧
    ((after (.shavingStart 0) (walking.modSlice 0 fun q => { q with test := some ⟨5, 7, true, 127, 0, false⟩ })).slice 0).shaving.map
      (fun h => (h.lb, h.ix0, h.cal)) = some (7, 128 * 127, true) ∧ (shaved 1 walking).engineFree 0 = false ∧
    after (.shavingStep 0 nothing) walking = walking ∧ (shaved 1 walking).awake = true ∧ ((shaved 1 walking).slice 0).powered = true ∧
    ((shaved 1 walking).slice 0).stepAt = none ∧
    ((after (.shavingStep 0 nothing) (shaved 1 walking)).slice 0).shaving.map (fun h => (h.step, h.left)) = some (1, 64) ∧
    (let t := after (.shavingStep 0 nothing) (shaved 1 walking); after (.shavingStep 0 nothing) t = t) := by decide +kernel

/-- The line of `engaged` that step k touches with one access left reads as b throughout after the grant. -/
def patterned (k : Nat) (b : Byte) : Bool :=
  let e := engaged k 1 128
  ((after (.bankGrant 0 []) e).image (arrHome 0 (shavingAt k 1 128).line)).data == List.replicate 128 b

theorem witness_ShavingsRun_grants : (engaged 1 64 0).mayGrant 0 = true ∧ (engaged 1 64 0).memOk = true ∧
    (engaged 1 64 0).slotOwner 0 63 false = 14 ∧ ((engaged 1 64 0).group 0).waitq = [] ∧
    ((after (.bankGrant 0 []) (engaged 1 64 0)).slice 0).shaving.map (fun h => (h.step, h.left, h.hi)) = some (1, 63, 1) ∧
    ((after (.bankGrant 0 []) (engaged 2 1 127)).slice 0).shaving.map (fun h => (h.step, h.left, h.hi)) = some (3, 0, 128) ∧
    patterned 3 0xAA = true ∧ patterned 4 0xAA = true ∧ patterned 7 0x55 = true ∧ patterned 8 0x55 = true ∧
    ((after (.bankGrant 0 []) (engaged 15 1 128)).slice 0).shaving.map (fun h => h.step) = some 16 ∧
    ((after (.bankGrant 0 []) (engaged 16 1 128)).slice 0).shaving = none ∧
    (after (.bankGrant 0 []) (engaged 16 1 128)).field (oBtSl 0) 58 46 = 1 := by decide +kernel

def failing : State := (ready.modSlice 0 fun q => { q with wantRetire := [3] })
def noSpare : State := failing.setReg (oSpare 0) 0xF000000000000000
def migrated (next : Nat) : State := (after (.retirementStart 3 .hardFault) failing).modSlice 0 fun q =>
  { q with migr := q.migr.map fun m => { m with next := next } }

theorem witness_BanksRetired : failing.build.ok = true ∧ failing.fwRuns = true ∧ failing.dead 3 = false ∧ failing.retireDue 3 .hardFault = true ∧
    failing.freeSpare 0 = some 64 ∧ after (.retirementStart 4 .hardFault) failing = failing ∧
    ((after (.retirementStart 3 .hardFault) failing).slice 0).migr = some ⟨3, 3, 64, 0, false, none⟩ ∧ noSpare.freeSpare 0 = none ∧
    (after (.retirementStart 3 .hardFault) noSpare).dead 3 = true ∧
    ((failing.setReg oIntCfg 0x200).setReg (oBtFw 0 0) 0x40000).retireDue 3 .words = true ∧
    (after (.migrationSwitch 0) (migrated 16384)).field (oRemap 3) 6 0 = 64 ∧
    (after (.migrationSwitch 0) (migrated 16384)).bit (oRetired 0) 3 = true := by decide +kernel

def faulty : State := after (.sliceFault 7 .pll) (ready.setReg oRstCfg 0)
def recovering (run again : Bool) (q : List Nat) : State :=
  { ready.modSlice 7 (fun x => { x with hold := true, recov := some ⟨run, false, again, false, none⟩ }) with fw := { ready.fw with recovQ := q } }

theorem witness_SlicesFailAndRecover : faulty.bit oRstFault (faultBit 7 .pll) = true ∧ (faulty.slice 7).hold = true ∧
    ready.build.slices ≤ 8 ∧ after (.sliceFault 8 .pll) ready = ready ∧ (recovering false false [7]).recoveries < 2 ∧
    ((after .recoveryStart (recovering false false [7])).slice 7).recov = some ⟨true, false, false, false, none⟩ ∧
    after .recoveryStart ready = ready ∧ ((recovering true false []).slice 7).powered = true ∧ (recovering true false []).drained 31 = true ∧
    ((after (.recoveryComplete 7 ⟨[], []⟩) (recovering true false [])).slice 7).hold = false ∧
    ((after (.recoveryComplete 7 ⟨[], []⟩) (recovering true true [])).slice 7).recov = some ⟨true, true, false, true, none⟩ ∧
    ((after (.recoveryComplete 7 ⟨[], []⟩) (after (.sliceFault 7 .pll) (after (.recoveryComplete 7 ⟨[], []⟩) (recovering true true [])))).slice 7).recov = none ∧
    ((after (.recoveryComplete 7 ⟨[], []⟩) (after (.sliceFault 7 .pll) (after (.recoveryComplete 7 ⟨[], []⟩) (recovering true true [])))).slice 7).hold = true := by decide +kernel

/-! ## Resets, boot, supply, time -/

theorem witness_ResetsOfTheBlock : work.build.ok = true ∧ (after .poresetAssert work).pins.poreset = true ∧ (after .poresetAssert work).bound = [] ∧
    after .warmReset (after .poresetAssert work) = after .poresetAssert work ∧ work.pins.poreset = false ∧ work.ps = 0 ∧
    (State.reset.slice 9).shaving = none ∧ (after (.coldReset 0x8003 [(0, 5)]) work).iid = 3 ∧
    (after (.coldReset 3 [(0, 5)]) work).opOf 0 = 0 ∧ (after (.coldReset 3 [(0, 5)]) work).driven ≠ [] ∧
    (after .warmReset work).bound = [] := by decide +kernel

theorem slices_rest : ∀ sl, (State.reset.slice sl).shaving = none ∧ (State.reset.slice sl).powered = true := fun _ => ⟨rfl, rfl⟩

def inBoot (k : Nat) : State := State.reset.setFld oBootStat 63 60 k
theorem witness_BootSequence : State.reset.boot = 0 ∧ (after .selfTestDone State.reset).boot = 1 ∧ (after .bootGo (inBoot 1)).boot = 2 ∧
    (after .bootGo (inBoot 3)).boot = 2 ∧ (after .bootGo (inBoot 5)).regs = (inBoot 5).regs ∧ (inBoot 2).imageReason = some 1 ∧
    (after .imageCheck (inBoot 2)).boot = 3 ∧ (after (.secenInitDone none) (inBoot 4)).field oBootStat 59 56 = 7 ∧
    (inBoot 4).bit oGlbErr 8 = false ∧ (inBoot 4).build.ok = true ∧ after (.secenInitDone (some [])) ready = ready := by decide +kernel

def vfAsked : State := ready.askVid 0x40
def drooping (n : Nat) : State := ready.modDom 1 fun q => { q with droop := true, droopCnt := n }
theorem witness_SupplyAndDroop : vfAsked.pins.vfVreq = true ∧ ((after .vfReady vfAsked).dom 0).settled = 0x40 ∧
    (after .vfReady vfAsked).pins.vfReady = true ∧ after .vfReady ready = ready ∧
    (after .vfReadyRelease (after .vfReady vfAsked)).pins.vfReady = false ∧
    (after .vfTimeout { vfAsked with turn := 31 }).bit oNote 3 = false ∧ (after .vfTimeout { vfAsked with turn := 32 }).bit oNote 3 = true ∧
    ((after (.droop 8) ready).dom 8).droop = true ∧ ((after (.droopClear 1) (drooping 9)).dom 1).droop = false ∧
    (after (.droopLong 1) (drooping 256)).bit oNote 0 = true ∧ (after (.droopLong 1) (drooping 256)).tgtOf 1 = 4 ∧
    (after .thermalTrip ready).gateOf 5 = 8 ∧ (after .thermalTrip ready).tgtOf 1 = 4 ∧ (after .vaLost ready).pins.vaOk = false ∧
    ((after .vaLost ready).slice 7).hold = true := by decide +kernel

/-- Run minutes have come for a sample. -/
def sampleDue : State := ready.setReg (oKeep 27) 1440
theorem witness_TimeAndAgeing : (after (.ftimeBad 5) ready).bit oSyncErr 3 = true ∧
    (after (.ftimeBad 5) { ready with ftime := 5 }).bit oSyncErr 3 = true ∧ sampleDue.fw.sampleAt ≤ sampleDue.minutes ∧
    (after .ageingSample sampleDue).fw.sampleAt = 120 ∧ ((after .ageingSample sampleDue).dom 1).samples = [0] ∧
    sampleDue.fw.replanAt ≤ sampleDue.minutes ∧ (after .ageingReplan sampleDue).fw.replanAt = 2880 ∧
    after .ageingReplan State.reset = State.reset ∧ (after .runMinute ready).minutes = 1 ∧
    (after .runMinute (ready.setReg (oKeep 27) 0xFFFFFFFF)).minutes = 2 ^ 32 - 1 ∧ (after .keepDomainLoss ready).mem = [] := by decide +kernel

/-! ## Commands -/

theorem witness_CommandsAreChecked : (posted 0x01 [] ready).cmdReady 0 0x01 = true ∧ (posted 0x01 [] ready).cmdReady 0 0x02 = false ∧
    (posted 0x02 [1] ready).generalCheck 0 = some 3 ∧ replied (after (.getInfo 0) (posted 0x02 [1] ready)) 0x02 6 3 = true ∧
    laneOf 0x00 = none ∧ replied (after (.undefinedCommand 0) (posted 0x00 [] ready)) 0x00 6 2 = true ∧
    (after (.undefinedCommand 0) (posted 0x00 [] ready)).done = 1 := by decide +kernel

/-- What becomes of command 0 where firmware serves it (`State.Serves`): code and detail of its reply, (0, 0) while it runs. -/
def served (c : Nat → Instr) (opc : Nat) (ws : List Nat) (s : State) : Option (Nat × Nat) :=
  let p := posted opc ws s
  if p.cmdReady 0 opc && p.generalCheck 0 == none then
    let w := ((after (c 0) p).reg (oRplSlot 0 0)).toNat
    some (w % 2 ^ 16, w / 2 ^ 16 % 2 ^ 8)
  else none

theorem serves_of (c : Nat → Instr) (opc : Nat) (ws : List Nat) (s : State) (h : (served c opc ws s).isSome = true) :
    (posted opc ws s).Serves 0 opc := by
  simp only [served] at h
  split at h
  · rename_i g
    simp only [Bool.and_eq_true, beq_iff_eq] at g
    exact ⟨g.1, g.2⟩
  · cases h

theorem witness_QueriesAndKeepCommands : served .echo 0x01 [1, 2, 3, 4, 5, 6, 7] ready = some (0, 0x11) ∧
    served .getInfo 0x02 [] ready = some (0, 0x11) ∧ served .fwInfo 0x03 [] ready = some (0, 0x11) ∧
    served .keepRead 0x58 [58 + 6 * 256] ready = some (0, 0x12) ∧ served .keepRead 0x58 [59 + 6 * 256] ready = some (5, 0x11) ∧
    served .keepErase 0x59 [1, 0] ready = some (6, 0x11) ∧ served .keepErase 0x59 [0, 0x4B454550] ready = some (5, 0x12) ∧
    served .keepErase 0x59 [7, 0x4B454550] ready = some (0, 0x13) := by decide +kernel

def spanW (b n : Nat) : Nat := n * 2 ^ 32 + b
theorem witness_RegionsDefinedDeletedCleared : served .regionDefine 0x10 [0, spanW 16383 2, 0, 0] ready = some (5, 0x11) ∧
    served .regionDefine 0x10 [0, spanW 0 1, 14, 0] ready = some (6, 0x13) ∧ served .regionDefine 0x10 [0, spanW 0 1, 32, 0] ready = some (12, 0x14) ∧
    served .regionDefine 0x10 [0, spanW 0 1, 0, 0] (bound3.setFld (oRgn 0 24) 15 0 1) = some (11, 0x15) ∧
    served .regionDefine 0x10 [255, spanW 16 1, 0, 0] bound3 = some (0, 0x16) ∧ served .regionDelete 0x11 [256] bound3 = some (5, 0x12) ∧
    served .regionDelete 0x11 [0] bound3 = some (0, 0x16) ∧ served .regionDelete 0x11 [0] (pair.setFld oTwinStat 63 62 2) = some (12, 0x14) := by
  decide +kernel

/-- A region of one unit to be cleared, and the clear under way. -/
def small : State := ready.defineRegion 9 { span := spanW 40 1, attr := 0, aux := 0 }
def clearing : State := { small with fw := { small.fw with clearing := some (some 0, 9), running := [⟨0, 0x12⟩] } }
theorem witness_RegionsDefinedDeletedCleared_later : served .regionDefine 0x10 [1, spanW 16 1, 32, 0] pair = some (0, 0) ∧
    served .regionDelete 0x11 [0] pair = some (0, 0) ∧ served .regionClear 0x12 [8] small = some (5, 0x12) ∧
    (posted 0x12 [9] small).cmdReady 0 0x12 = true ∧ (posted 0x12 [9] small).generalCheck 0 = none ∧ small.rgnValid 9 = true ∧
    small.rgnBusy 9 = false ∧ small.rgnTwin 9 = false ∧ small.memOk = true ∧ (after .regionClearDone clearing).fw.clearing = none ∧
    clearing.tp.regionCmd = none ∧ after .regionClearDone small = small := by decide +kernel

/-- Closes window 5 as command 0. -/
def closingWin (n : Nat) : State :=
  { owned.setFld (oSnd 5) 47 32 n with fw := { owned.fw with closingWin := some (0, 5), running := [⟨0, 0x19⟩] } }
theorem witness_WindowsOpenedAndClosed : served .windowOpen 0x18 [256 + 3 * 2 ^ 32, 2 ^ 16, 0] bound3 = some (5, 0x11) ∧
    served .windowOpen 0x18 [3 * 2 ^ 32, 2 ^ 16 + 16, 0] bound3 = some (5, 0x12) ∧
    served .windowOpen 0x18 [4 * 2 ^ 32, 2 ^ 16, 0] bound3 = some (10, 0x13) ∧ served .windowOpen 0x18 [5 + 3 * 2 ^ 32, 2 ^ 16, 0] owned = some (11, 0x14) ∧
    served .windowOpen 0x18 [255 + 3 * 2 ^ 32, 2 ^ 16 + 15, 0] bound3 = some (0, 0x16) ∧ served .windowClose 0x19 [256] owned = some (5, 0x11) ∧
    served .windowClose 0x19 [4] owned = some (5, 0x15) ∧ served .windowClose 0x19 [5] owned = some (0, 0) ∧
    after .windowCloseDone (closingWin 1) = closingWin 1 ∧ (after .windowCloseDone (closingWin 0)).tab (oWin 5) 63 63 = 0 ∧
    after .windowCloseDone owned = owned ∧ owned.regionOfSpan (owned.winBase 5) (owned.winSize 5) = some 0 := by decide +kernel

theorem witness_ContextsAndRings : served .ctxBind 0x20 [4, 4097 * 2 ^ 16, 0, 0] ready = some (5, 0x11) ∧
    served .ctxBind 0x20 [3, 0, 0, 0] bound3 = some (11, 0x12) ∧ served .ctxBind 0x20 [1023, 4096 * 2 ^ 16 + 128, 16384 * 2 ^ 16, 0] ready = some (0, 0x15) ∧
    served .ctxUnbind 0x21 [4] bound3 = some (10, 0x13) ∧ served .ctxUnbind 0x21 [3] one3 = some (11, 0x14) ∧
    served .ctxUnbind 0x21 [3] work = some (0, 0x15) ∧ trising work.bound = true ∧ work.ctxReferred 3 = false ∧
    work.slotOf 3 = some 0 ∧ work.pinned 0 = false := by decide +kernel

/-- Words of a ring of counters p and c of context 3: capacity, burst, high-water. -/
def ringWs (p c cap burst : Nat) : List Nat := [3 + p * 2 ^ 16 + c * 2 ^ 32, cap * 2 ^ 16 + burst * 2 ^ 8]
/-- A ring of counters 0 and 1 stands. -/
def rung : State := (after (.ringDeclare 0) (posted 0x22 (ringWs 0 1 2 1) work)).setReg oCmdDone 0
theorem witness_ContextsAndRings_rings : served .ringDeclare 0x22 (ringWs 4 0 2 1) work = some (10, 0x11) ∧
    served .ringDeclare 0x22 (ringWs 0 0 2 1) work = some (5, 0x12) ∧ served .ringDeclare 0x22 (ringWs 0 1 2 1) work = some (0, 0x14) ∧
    work.slotOf 3 = some 0 ∧ ((List.range 64).find? fun k => work.tab (oRing k) 63 63 == 0) = some 0 ∧ rung.tab (oRing 0) 63 63 = 1 ∧
    rung.ctxRing 3 0 = some 0 ∧ (posted 0x22 (ringWs 0 2 2 1) rung).ringBusy 0 3 = true ∧
    (posted 0x22 (ringWs 0 1 2 1) pinnedAll).ringRange 0 3 = true ∧
    (posted 0x22 (ringWs 0 1 2 1) pinnedAll).ringBusy 0 3 = false ∧ (pinnedAll.ensureResident 3).2 = false := by decide +kernel

theorem witness_PowerCommands : served .pwrArm 0x30 [2 * 2 ^ 16 + 2] ready = some (5, 0x11) ∧ served .pwrArm 0x30 [3 * 2 ^ 16 + 2 + 255 * 2 ^ 32] ready = some (0, 0x12) ∧
    served .pwrState 0x31 [4] ready = some (5, 0x11) ∧ served .pwrState 0x31 [0] ready = some (0, 0x12) ∧
    served .pwrState 0x31 [1] (entering 1) = some (11, 0x13) ∧ served .pwrState 0x31 [3] ready = some (0, 0) ∧
    served .pwrCap 0x32 [39 + 0x2C688 * 2 ^ 8] ready = some (5, 0x11) ∧ served .pwrCap 0x32 [40 + 0x2C688 * 2 ^ 8] ready = some (0, 0x12) ∧
    served .pwrCap 0x32 [170 + 0x2C688 * 2 ^ 8] ready = some (0, 0x12) ∧ served .pwrCap 0x32 [171 + 0x2C688 * 2 ^ 8] ready = some (5, 0x11) ∧
    served .phaseDefine 0x33 [16, 0, 0] ready = some (5, 0x11) ∧ served .phaseDefine 0x33 [15, 0, 0] ready = some (0, 0x12) ∧
    served .phaseDefine 0x33 [15, 8, 0] ready = some (5, 0x11) := by decide +kernel

theorem witness_PowerCommands_points : served .phaseSet 0x34 [16] ready = some (5, 0x11) ∧ served .phaseSet 0x34 [15] (entering 1) = some (11, 0x12) ∧
    served .phaseSet 0x34 [15] ready = some (0, 0x13) ∧ served .phaseSet 0x34 [0] (timed 0 0) = some (0, 0x13) ∧
    served .phaseSet 0x34 [0] (ready.setFld (oPhaseA 0) 11 9 4) = some (0, 0) ∧
    served .domainLock 0x35 [0x1FF + 5 * 2 ^ 16] ready = some (5, 0x11) ∧ served .domainLock 0x35 [0x1F + 5 * 2 ^ 16] ready = some (0, 0x13) ∧
    served .domainLock 0x35 [0x1F + 4 * 2 ^ 16] ready = some (0, 0) ∧
    served .domainLock 0x35 [1 + 5 * 2 ^ 16] (ready.setReg oLock (BitVec.ofNat 64 (5 * 2 ^ 16 + 1))) = some (11, 0x12) ∧
    served .domainLock 0x35 [1 + 2 ^ 24] (ready.setReg oLock (BitVec.ofNat 64 (5 * 2 ^ 16 + 1))) = some (0, 0x13) := by decide +kernel

/-- TP's link is up. -/
def tpUp : State := linked ready
def bindWait (t : State) : State := { (after (.twinBind 0) (posted 0x48 [9] t)) with turn := 1024 }
def resynced : State := after (.twinResync 0) (posted 0x49 [] pair)
def copied : State := { resynced with tp := { resynced.tp with resync := resynced.tp.resync.map fun q => { q with chunks := [] }, await := [] } }

theorem witness_TestAndPairCommands : served .testRun 0x40 [512] ready = some (5, 0x11) ∧ served .testRun 0x40 [511] (ready.setReg oBtCfg 0) = some (11, 0x12) ∧
    served .testRun 0x40 [511] ready = some (0, 0) ∧ served .checkerMode 0x41 [1] ready = some (0, 0x12) ∧
    served .checkerMode 0x41 [1] (ready.modPort 12 fun q => { q with inq := [⟨0, 0, [], (0, 0), false⟩] }) = some (11, 0x11) ∧
    served .bankRetire 0x42 [0] noSpare = some (5, 0x11) ∧ served .bankRetire 0x42 [3] ready = some (0, 0) ∧
    served .bankRetire 0x42 [3] (ready.modSlice 0 fun q => { q with hold := true }) = some (11, 0x12) := by decide +kernel

theorem witness_TestAndPairCommands_pair : served .twinBind 0x48 [9] ready = some (12, 0x11) ∧ served .twinBind 0x48 [9] pair = some (11, 0x12) ∧
    served .twinBind 0x48 [9] tpUp = some (0, 0) ∧ served .twinBind 0x48 [2 ^ 16] pair = some (11, 0x12) ∧
    served .twinBind 0x48 [2 ^ 16] tpUp = some (0, 0x14) ∧ (bindWait tpUp).tp.binding = some (0, 9, 0) ∧
    replied (after .twinBindTimeout (bindWait tpUp)) 0x48 12 0x13 = true ∧
    after .twinBindTimeout { bindWait tpUp with turn := 1023 } = { bindWait tpUp with turn := 1023 } ∧
    served .twinResync 0x49 [] ready = some (12, 0x11) ∧ served .twinResync 0x49 [] (pair.setFld oTwinStat 63 62 3) = some (11, 0x12) ∧
    served .twinResync 0x49 [] pair = some (0, 0) := by decide +kernel

theorem witness_TestAndPairCommands_resync : resynced.tp.resync = some ⟨some 0, List.range 16, [], 0, 0, false⟩ ∧
    after .resyncComplete pair = pair ∧ after .resyncComplete resynced = resynced ∧ copied.resyncBusy = false ∧ copied.fwRuns = true ∧
    (after .resyncComplete copied).twin = 1 ∧ replied (after .resyncComplete copied) 0x49 0 0x13 = true := by decide +kernel

/-- Port 0 fenced for a command, drained, reset. -/
def fencing (opc : Nat) (c : Nat → Instr) (s : State) : State := after (c 0) (posted opc [0] s)
def heldPort : State := (ready.modPort 0 fun q => { q with fence := .fenced 1, reqCrd := 3 }).setFld (oProg 0) 59 59 1
theorem witness_PortsFencedAndReset : (writing.port 0).fence = .free ∧ (writing.port 0).inq = [] ∧
    ((writing.fencePort 0 1).port 0).due.map (fun d => d.refused) = [true] ∧ (writing.fencePort 12 1) = writing ∧
    served .portFence 0x50 [12] ready = some (5, 0x11) ∧ served .portFence 0x50 [0] heldPort = some (11, 0x12) ∧
    served .portFence 0x50 [11] ready = some (0, 0) ∧ ((fencing 0x50 .portFence ready).port 0).fence = .draining 1 ∧
    after (.fenceDrained 0) ready = ready ∧ replied (after (.fenceDrained 0) (fencing 0x50 .portFence ready)) 0x50 0 0x13 = true ∧
    served .portUnfence 0x51 [12] ready = some (5, 0x11) ∧ served .portUnfence 0x51 [0] ready = some (11, 0x12) ∧
    ((after (.portUnfence 0) (posted 0x51 [0] heldPort)).port 0).reqCrd = 32 ∧
    (after (.portUnfence 0) (posted 0x51 [0] heldPort)).bit (oProg 0) 59 = false ∧
    ((after (.portUnfence 0) (posted 0x51 [0] (heldPort.setFld (oProg 0) 59 59 0))).port 0).reqCrd = 3 := by decide +kernel

theorem witness_PortsFencedAndReset_reset : served .resetPartition 0x52 [12] ready = some (5, 0x11) ∧
    ((fencing 0x52 .resetPartition ready).port 0).fence = .draining 4 ∧
    (fencing 0x52 .resetPartition (fencing 0x50 .portFence ready)).fwRuns = true ∧
    (after (.fenceDrained 0) (fencing 0x52 .resetPartition ready)).bit (oProg 0) 59 = true ∧
    served .resetPartition 0x52 [0] heldPort = some (0, 0x12) ∧
    served .resetSlice 0x53 [8] ready = some (5, 0x11) ∧ served .resetSlice 0x53 [7 + 256] ready = some (0, 0) ∧
    ((after (.resetSlice 0) (posted 0x53 [7 + 256] ready)).slice 7).hold = true ∧
    ((after (.resetSlice 0) (posted 0x53 [7 + 256] (recovering true false []))).slice 7).recov = some ⟨true, true, true, false, some 0⟩ := by
  decide +kernel

/-! ## The register window -/

theorem reached : ready.Reached := ⟨by decide +kernel, by decide +kernel, by decide +kernel, by decide +kernel⟩
def wrote (o v : Nat) (s : State) : State := after (.registerWrite o (BitVec.ofNat 64 v)) s

theorem witness_ForeignRegistersAreProtected : ready.Reached ∧ (regRow oSyncErr).map (fun e => (e.1.owner, e.1.st)) = some (.hw, 0xF) ∧
    (wrote oSyncErr 6 (ready.setFld oSyncErr 3 0 7)).reg oSyncErr = 1 ∧ (wrote oSyncErr 6 ready).bit oGlbErr 1 = false ∧
    (wrote oPwrStat (2 ^ 63) ready).bit oGlbErr 1 = true ∧ (wrote oPwrStat (2 ^ 63) ready).ps = 0 ∧
    (wrote oGlbErr 2 (ready.setBit oGlbErr 1)).bit oGlbErr 1 = false ∧ (wrote oGlbErr 1 (ready.setBit oGlbErr 0)).bit oGlbErr 0 = false ∧
    bitAt ((ready.setBit oGlbErr 0).setReg (oIen 0) 1).irqLine 0 = true := ⟨reached, by decide +kernel⟩

theorem witness_UnassignedOffsets : regRow 0x28 = none ∧ otherBlock 0x28 = false ∧ (wrote 0x28 1 ready).bit oGlbErr 2 = true ∧
    (after (.readClear ⟨0x28, 0⟩) ready).driven = [.regCrd, .reg 0] ∧ (wrote (oView 1023 24) 1 ready).reg (oView 1023 24) = 0 ∧ (wrote (oView 1023 24) 1 ready).reg oGlbErr = ready.reg oGlbErr ∧
    (after (.readClear ⟨oView 1023 24, 0⟩) ready).driven = [.regCrd, .reg 0] := by decide +kernel

def strides : State := after (.viewStrideWrite 1023 true 7) (after (.viewStrideWrite 1023 false 5) ready)
theorem witness_ViewsAreCommittedByTheirHeader : strides.regs = ready.regs ∧ strides.Reached ∧
    (after (.viewHdrWrite 1023 0x9000000000000000) strides).reg (oView 1023 8) = 5 ∧
    (after (.viewHdrWrite 1023 0x9000000000000000) strides).reg (oView 1023 16) = 7 ∧
    (after (.viewHdrWrite 1023 0xE000000000000000) strides).field (oView 1023 0) 62 60 = 1 ∧
    (after (.readClear ⟨oView 1023 8, 0⟩) (after (.viewHdrWrite 1023 0x9000000000000000) strides)).driven.take 2 = [.regCrd, .reg 5] ∧
    after (.viewHdrWrite 1024 1) ready = ready :=
  ⟨by decide +kernel, ⟨by decide +kernel, by decide +kernel, by decide +kernel, by decide +kernel⟩, by decide +kernel⟩

theorem witness_HostAccessesOfTheWindow : plainReg oSyncCfg = true ∧ (regRow oSyncCfg).map (fun e => e.1.owner) = some .host ∧
    (wrote oSyncCfg (2 ^ 43 - 1) ready).reg oSyncCfg ≠ ready.reg oSyncCfg ∧ (wrote oCmdPosted 64 ready).posted = 64 ∧
    (wrote oCmdPosted 65 ready).posted = 0 ∧ (wrote oCmdPosted 65 ready).bit oCmdStat 2 = true ∧
    (after (.readClear ⟨oMis, 0⟩) (ready.setReg oMis 9)).driven = [.regCrd, .reg 9] ∧ (after (.readClear ⟨oMis, 0⟩) (ready.setReg oMis 9)).reg oMis = 0 ∧
    wrote oSyncCfg 0 (inPs 1) = inPs 1 ∧ (after (.slotSwap 0x80000000) ready).bit oSwap 31 = true ∧
    ((after (.slotSwap 0x80000000) { ready with cyc := 4079 }).group 31).swapArmed = true ∧
    ((after (.slotSwap 0x80000000) { ready with cyc := 4080 }).group 31).swapArmed = false ∧
    (after (.slotShadowWrite 31 3 9) ready).reg (oSlotShd 31 3) = 9 ∧
    (after (.slotShadowWrite 31 3 9) (ready.setFld oSwap 31 31 1)).bit oSlotStat 0 = true ∧
    after (.slotShadowWrite 32 0 9) ready = ready := by decide +kernel

theorem witness_HostAccessesOfTheWindow_more : (after (.slotRankWrite 0x0123456789ABCDE) ready).reg oRank = 0x0123456789ABCDE ∧
    (after (.slotRankWrite 0) ready).bit oGlbErr 0 = true ∧ (after (.slotFreeze 0x80000000) ready).bit oFreeze 31 = true ∧
    ((after (.flush 7) (ready.modPort 7 fun q => { q with vpc := [(0, [])] })).port 7).vpc = [] ∧ ready.hasPort 7 = true ∧
    after (.flush 13) ready = ready ∧ (after .elogPop { ready with elog := [⟨0, 0, 0, 0, 0, 0, 1, none, 0⟩] }).elog = [] ∧
    (after (.btAbort true) (shaved 1 walking)).field oBtCfg 17 0 = 0x30000 := by decide +kernel

/-- PORESET_N is low. -/
def inReset : State := after .poresetAssert State.reset
/-- The memory test runs under background 3; sub-array 2 of bank 5 fails there in two rows. -/
def testing : State := after (.tmMbist 0x88) inReset
def failsAt (rows : List Nat) : List SubFail := [⟨3, 5, 2, rows⟩]
theorem witness_WrapperInstructions : inReset.pins.poreset = true ∧ (after (.wsPreload [true, true]) inReset).wrap.boundary = [true, true] ∧
    (after .wsExtest (after (.wsPreload [true, true]) inReset)).driven.drop 2 = [.ext [true, true], .wso 0] ∧
    (after .wsExtest inReset).wrap.ir = 1 ∧ testing.wrap.running = true ∧
    (after (.mbistComplete [] [] []) testing).wrap.pass = true ∧ after (.mbistComplete [] [] []) inReset = inReset ∧
    (after (.mbistComplete (failsAt [9]) [] []) testing).wrap.pass = true ∧
    (after (.mbistComplete (failsAt [9]) [] []) testing).wrap.image = [2 ^ 31 + 5 * 2 ^ 21 + 2 * 2 ^ 17 + 9] ∧
    (after (.mbistComplete (failsAt [1, 2, 3, 4, 5]) [] []) testing).wrap.pass = false ∧
    (after .tmStatus (after (.mbistComplete (failsAt [1, 2, 3, 4, 5]) [] []) testing)).driven.head? = some (.wso 21) ∧
    (after .tmRepairRd inReset).driven = [.wso 0] ∧ (after (.tmRepairLd 9) inReset).wrap.soft = [9] ∧
    (after .tmFuseRd inReset).driven = [.wso 0] ∧ (after (.wsPreload [true]) State.reset).wrap.bypass = true ∧
    (after .wsExtest State.reset).wrap.ir = 0 ∧ (after (.mbistComplete [] [] [(3, 5, 2)]) testing).wrap.pass = false ∧
    (after (.mbistComplete [] (failsAt [9]) [(0, 5, 2)]) testing).wrap.image = [2 ^ 31 + 5 * 2 ^ 21 + 2 * 2 ^ 17 + 2 ^ 16 + 9] := by decide +kernel

/-! ## Clauses the witnesses above leave -/

/-- The cycle of a hog cutoff; a write held at acceptance that a later request waits behind. -/
def justCut : State := work.modPort 0 fun q => { q with hogAt := some 0 }
def heldTwo : State := ((after (.nop 0 nop0) (after (.wr 0 wr1) (after (.nop 0 nop0) bound3))).setFld (oCfg 0) 7 0 1).modPort 0
  fun q => { q with lease := 64 }
def accHog : State := ((after (.acc 0 (hdr [(0, opAcc), (16, 3), (140, 7)])) work).setFld (oCfg 0) 7 0 1).modPort 0
  fun q => { q with lease := 64 }
theorem witness_BeatsAndCutoffs : justCut.openPartner 0 = true ∧ justCut.leaseOut 0 = false ∧ (justCut.port 0).hogAt = some justCut.now ∧
    (after (.writeDataBeat 0 [5] 1) justCut).driven = [.wdCrd 0] ∧
    ((heldTwo.port 0).inq.map fun w => hOpc w.h) = [opNop, opWr, opNop] ∧
    (((after (.hogCutoff 0) heldTwo).port 0).inq.map fun w => w.ended) = [false, true, false] ∧
    ((accHog.port 0).due.map fun d => d.need) = [1] ∧
    (((after (.hogCutoff 0) accHog).port 0).reqs.map fun r => r.cut) = [] ∧
    (after (.hogCutoff 0) accHog).driven.head? = some (.rspA 0 13 0 0) := by decide +kernel

/-- The context has come to be resident since the header was held; a packet of window 5 waits in RP for its context. -/
def metAgain : State := missed.loadCtx 3 0 0 0
def rpMissed : State := after (.rwrite (mkPkt [(0, 1), (8, 1), (42, 5), (50, 2), (72, 7), (121, 127)]) [])
  (((linked bound3).setReg (oWin 5) (BitVec.ofNat 64 (2 ^ 63 + 2 ^ 62 + 3 * 2 ^ 48 + 2 * 2 ^ 32 + 16 * 2 ^ 16))).setReg (oSnd 5) 0)
theorem witness_ContextMissServed_more : metAgain.slotOf 3 = some 0 ∧ (after (.contextMiss 0) metAgain).driven = [.rspA 0 0 7 0, .reqCrd 0] ∧
    (after (.contextMiss 0) metAgain).field oSyncMiss 31 0 = 1 ∧ rpMissed.rp.held.length = 1 ∧ rpMissed.coreRuns 3 = true ∧
    rpMissed.open 10 = true ∧ (rpMissed.ensureResident 3).2 = true ∧ (after (.contextMiss 10) rpMissed).rp.held = [] ∧
    (after (.contextMiss 10) rpMissed).rp.fly.length = 1 ∧ bound3.missingBatch.isNone = true := by decide +kernel

/-- The entry of a close has gone meanwhile; a close that aborts. -/
def goneRange : State := closing.setFld (oSbEnt 0) 63 63 0
def aborting : State := after (.rangeClose 0 (hdr [(0, opRangeClose), (15, 1), (16, 3)])) ranged
theorem witness_EventsPulsesAndReleases_close : goneRange.sbValid 0 = false ∧ (goneRange.closeOf 0).isSome = true ∧
    (after (.rangeCloseInForce 0) goneRange).driven.head? = some (.rspA 0 11 0 0) ∧
    (after (.rangeCloseInForce 0) goneRange).regs = goneRange.regs ∧ ((opened.port 0).stepNext 1).isNone = true ∧
    (aborting.closeOf 0).map (fun e => hCond e.2.h) = some true ∧
    (after (.rangeCloseInForce 0) aborting).field oSbAborts 31 0 = 1 := by decide +kernel

/-- The ring lets nothing more in; every wait of the port is registered. -/
def finalFull : State := { finals.setReg (oRing 0) (BitVec.ofNat 64 (2 ^ 63 + 1 * 2 ^ 44 + 2 * 2 ^ 32 + 1 * 2 ^ 16 + 1)) with counters := [(1, ⟨1, none⟩)] }
theorem witness_AdvancesAndHeldOperations_full : finalFull.fits 1 1 = false ∧
    ((finalFull.port 0).reqs.find? (finalFull.port 0).finalReady).isSome = true ∧
    (((after (.finalAdvance 0) finalFull).port 0).reqs.map fun r => r.phase) = [.held] ∧
    (after (.heldWaitAnswer 0) { waiting with waiters := full3.waiters }).waiters.length = 256 := by decide +kernel

/-- The link cannot take a packet now: the operation is handed over and goes when it can. -/
def handed : State := after (.rsigSend 0 5) (waitingTx0 routing)
where waitingTx0 (s : State) : State := s.setLink false { s.link false with sentNow := true }
theorem witness_RemoteWritesAndSignalsSent_later : (handed.rp.sendBuf.map fun w => (w.sig.isSome, w.data)) = [(true, [])] ∧
    (nextCycle handed).canSend false = true ∧ handed.canSend false = false ∧
    ((after (.rsigSend 0 9) (nextCycle handed)).rp.sendBuf.map fun w => (w.sig, natLE (w.data.take 8))) = [(none, 1009)] ∧
    (after (.responseTimeout 0) { handed with turn := 1024 }).bit oRmtErr 4 = true := by decide +kernel

/-- A control answer sent, and a request of this instance outstanding, whose packets the link loses. -/
def answered : State :=
  let t := after (.deleteMessage (msg 10 0) (rgnMsg 1 0)) pair
  t.setLink true { t.link true with sentNow := false }
def answer5 : Pkt := (answered.tp.ctlSent.map fun e => e.2.1).headD 0
theorem witness_LinksChange_lost : answered.LinkReady true ∧ answered.tp.ctlSent.map (fun e => e.1) = [5] ∧ kType answer5 = 11 ∧
    kBit4 answer5 = true ∧ tpOut (after (.linkLost true answer5) answered) = [(11, 5, 5), (11, 5, 5)] ∧
    tpOut (after (.linkLost true (tw 600)) awaits) = [(8, 0, 3)] ∧
    (linked work).LinkReady true :=
  ⟨⟨by decide +kernel, by decide +kernel, by decide +kernel, by decide +kernel, by decide +kernel⟩, by decide +kernel, by decide +kernel,
    by decide +kernel, by decide +kernel, by decide +kernel, ⟨by decide +kernel, by decide +kernel, by decide +kernel, by decide +kernel, by decide +kernel⟩⟩

/-- This instance's own DEFINE of region 1, command 7, waits for the peer; a clear of the peer. -/
def defining : State := { posted 0x10 [1, 2 ^ 32 + 64, 32, 0] pair with
  tp := { pair.tp with regionCmd := some (0, 1, msgRegion) }, fw := { pair.fw with running := [⟨0, 0x10⟩] } }
theorem witness_PeerRegionMessages_more : defining.fw.hung = 0 ∧ defining.coreRuns 0 = true ∧ defining.spanOk 1 (defining.cmdDef 0) = true ∧
    (after (.regionMessage (msg 11 0) []) defining).rgnValid 1 = true ∧
    tpOut (after (.clearMessage (msg 10 0) (rgnMsg 2 0)) cleared) = [(11, 5, 5)] ∧
    (after (.regionMessage (msg 10 0) (rgnMsg 1 16)) { defining with fw := { defining.fw with hung := 1 } }).rgnValid 1 = false := by
  decide +kernel

theorem witness_GatesAndGrants_alone : (readOf rdAcc (oneReq opRd)).engineOffer 0 = none ∧ (readOf rdAcc (oneReq opRd)).barred rdAcc = false ∧
    (readOf rdAcc (oneReq opRd)).memOk = true ∧ ((readOf rdAcc (oneReq opRd)).port 0).req 9 ≠ none := by decide +kernel

/-- The failing words of bank 3 pass the limit and no spare is free. -/
def wornOut : State := ((noSpare.setReg oIntCfg 0x200).setReg (oBtFw 0 0) 0x40000)
theorem witness_BanksRetired_words : wornOut.retireDue 3 .words = true ∧ wornOut.dead 3 = false ∧
    (after (.retirementStart 3 .words) wornOut).bit oIntErr 10 = true ∧ (after (.retirementStart 3 .words) wornOut).dead 3 = false ∧
    failing.btSlot (groupOf 3) = true ∧
    served .bankRetire 0x42 [3] (noSpare.modSlice 0 fun q => { q with hold := true }) = some (5, 0x11) := by decide +kernel

theorem witness_BootSequence_ready : (inBoot 4).fw.stopped = 0 ∧ (inBoot 4).fw.hung = 0 ∧ (after (.secenInitDone (some [])) (inBoot 4)).boot = 5 ∧
    ((after (.secenInitDone (some [])) (inBoot 4)).slice 7).stopped = false ∧
    after (.secenInitDone (some [])) { inBoot 4 with fw := { (inBoot 4).fw with stopped := 8 } } =
      { inBoot 4 with fw := { (inBoot 4).fw with stopped := 8 } } := by decide +kernel

/-- PS1 with the idle count at T2: an exit or an entry to PS2 from there. -/
theorem witness_PowerStatesEnteredAndLeft_deeper : ((armed 3 9 9).setFld oPwrStat 63 62 1).fwReady = true ∧
    (after .idleEntry ((armed 3 9 9).setFld oPwrStat 63 62 1)).pw.entry = some ⟨2, 4, none, 0⟩ ∧
    after .idleEntry ((armed 3 9 8).setFld oPwrStat 63 62 1) = (armed 3 9 8).setFld oPwrStat 63 62 1 := by decide +kernel

/-- A region of the pair is redefined: the peer is asked under lock. -/
theorem witness_RegionsDefinedDeletedCleared_pair :
    served .regionDefine 0x10 [0, spanW 0 1, 0, 0] pair = some (0, 0) ∧
    ((after (.regionDefine 0) (posted 0x10 [0, spanW 0 1, 0, 0] pair)).rgnLock 0 = true) ∧
    served .regionDefine 0x10 [0, spanW 0 1, 0, 0] (pair.setFld oTwinStat 63 62 2) = some (12, 0x14) := by decide +kernel

def noCredit : State := ready.modPort 12 fun q => { q with regCrd := 0 }
theorem witness_HostAccessesOfTheWindow_rest : (after (.registerWrite (oRamp 0) 0) ready).field (oRampStat 0) 54 48 = 64 ∧
    (wrote oSyncCfg 0 noCredit).bit (oPErr 12) 0 = true ∧ (wrote oSyncCfg 0 noCredit).reg oSyncCfg = noCredit.reg oSyncCfg ∧ ready.boot = bootReady ∧
    (((after (.flush 4) (work.modPort 4 fun q => { q with reqs := [{ Req.blank 9 0 [] with rows := [Row.todo 0 [⟨5, 0, 5, false, .sent⟩]] }] })).port
      4).reqs.map fun r => r.barred) = [[5]] := by decide +kernel

end Sys2Proof.Tests
end

section
/-! PROOFS. The register map seen from an offset (R328), a host access in PS0 (R48, R331), and the view entries (R77, R78). -/
namespace Sys2Proof.Machine

/-! ## Rows of the register map near an offset -/

/-- A row has no register outside `base` to `base + stride · (count - 1)`. -/
theorem RegRow.offset_of_indexOf {r : RegRow} {off i : Nat} (h : r.indexOf off = some i) :
    r.base ≤ off ∧ off ≤ r.base + r.stride * (r.count - 1) := by
  unfold RegRow.indexOf at h
  dsimp only at h
  split at h
  · cases h
  · split at h
    · obtain ⟨hrem, hcount, -⟩ := ‹_ ∧ _ ∧ _›
      have hoff : r.stride * ((off - r.base) / r.stride) = off - r.base := Nat.mul_div_cancel' (Nat.dvd_of_mod_eq_zero hrem)
      have hle : r.stride * ((off - r.base) / r.stride) ≤ r.stride * (r.count - 1) := Nat.mul_le_mul_left _ (by omega)
      omega
    · cases h

/-- The row may have registers from `lo` to `hi`. -/
def RegRow.meets (lo hi : Nat) (r : RegRow) : Bool := decide (r.base ≤ hi ∧ lo ≤ r.base + r.stride * (r.count - 1))

/-- The search for an offset may leave out the rows that lie apart from an interval around it. -/
theorem rowIn_filter_meets {lo hi off : Nat} (hlo : lo ≤ off) (hhi : off ≤ hi) (rows : List RegRow) :
    rowIn off (rows.filter (RegRow.meets lo hi)) = rowIn off rows := by
  induction rows with
  | nil => rfl
  | cons r rs ih =>
    by_cases hm : r.meets lo hi = true
    · rw [List.filter_cons_of_pos hm]
      simp only [rowIn, ih]
    · rw [List.filter_cons_of_neg hm, ih]
      have hnone : r.indexOf off = none := by
        rw [Option.eq_none_iff_forall_ne_some]
        intro i hi'
        have hspan := RegRow.offset_of_indexOf hi'
        simp only [RegRow.meets, decide_eq_true_eq] at hm
        omega
      simp only [rowIn, hnone]

/-! ## Registers of a view entry (R77) -/

/-- The RW bits of a view's `HDR` (offset 0), `S12` (8) and `S34` (16). -/
def viewMask (o : Nat) : Nat := if o = 0 then 0xF0FFFFFFFFFFFFFF else 0x0FFFFFFF0FFFFFFF

/-- The row of `VIEW[v].HDR`, `S12` or `S34`. -/
def viewRow (o : Nat) : RegRow :=
  ⟨0x8000 + o, 0x20, 1024, 0, .host, .always, 0, viewMask o, 0, 0, 0, 0, if o = 0 then 0x1000000000000000 else 0⟩

/-- Between `0x8000` and `0xFFFF` the map has the view entries alone. -/
theorem regRows_of_views : regRows.filter (RegRow.meets 0x8000 0xFFFF) =
    [viewRow 0, viewRow 8, viewRow 16, ⟨0x8018, 0x20, 1024, 0, .hw, .always, 0, 0, 0, 0, 0, 0, 0⟩] := by
  decide +kernel

theorem viewRow_indexOf {e o b : Nat} (he : e < 1024) (ho : o < 0x20) (hb : b ≤ o) :
    (viewRow b).indexOf (oView e o) = if b = o then some e else none := by
  have hoff : oView e o - (0x8000 + b) = 0x20 * e + (o - b) := by unfold oView; omega
  have hge : ¬ oView e o < 0x8000 + b := by unfold oView; omega
  have hdiv : (0x20 * e + (o - b)) / 0x20 = e := by omega
  have hrem : (0x20 * e + (o - b)) % 0x20 = 0 ↔ b = o := by omega
  simp only [RegRow.indexOf, viewRow, hoff, hge, hdiv, hrem, he]
  simp

/-- The offsets of a view's three assigned registers. -/
def IsViewReg (o : Nat) : Prop := o = 0 ∨ o = 8 ∨ o = 16

theorem IsViewReg.lt {o : Nat} (ho : IsViewReg o) : o < 0x20 := by unfold IsViewReg at ho; omega

theorem oView_bounds {e o : Nat} (he : e < 1024) (ho : IsViewReg o) : 0x8000 ≤ oView e o ∧ oView e o < 0x10000 := by
  have := ho.lt
  unfold oView
  omega

theorem regRow_view {e o : Nat} (he : e < 1024) (ho : IsViewReg o) : regRow (oView e o) = some (viewRow o, e) := by
  unfold regRow
  rw [← rowIn_filter_meets (lo := 0x8000) (hi := 0xFFFF) (oView_bounds he ho).1 (by have := oView_bounds he ho; omega), regRows_of_views]
  rcases ho with rfl | rfl | rfl
  · rw [rowIn, viewRow_indexOf he (by omega) (by omega)]
    rfl
  · rw [rowIn, viewRow_indexOf he (by omega) (by omega), rowIn, viewRow_indexOf he (by omega) (by omega)]
    rfl
  · rw [rowIn, viewRow_indexOf he (by omega) (by omega), rowIn, viewRow_indexOf he (by omega) (by omega), rowIn,
      viewRow_indexOf he (by omega) (by omega)]
    rfl

theorem present_viewRow (s : State) (o i : Nat) : s.present (viewRow o) i = 2 ^ 64 - 1 := rfl

theorem viewMask_and_all (o : Nat) : viewMask o &&& (2 ^ 64 - 1) = viewMask o := by
  unfold viewMask
  split <;> rfl

/-! ## Host writes to a view entry (R10, R78) -/

theorem State.hostOwned_view (s : State) {off : Nat} (mask : Nat) (v : Word) (hlo : 0x8000 ≤ off) (hhi : off < 0x10000) :
    s.hostOwned off mask v = if off % 0x20 = 0 then s.commitView off mask v
      else { s with stage := tset s.stage off (v &&& BitVec.ofNat 64 mask) } := by
  unfold State.hostOwned oBootCtl oCmdPosted oSwap oSlotShd oRank
  rw [if_neg (by omega), if_neg (by omega), if_neg (by omega), if_neg (by omega), if_neg (by omega), if_pos ⟨hlo, hhi⟩]

theorem State.writeReg_view (s : State) {e o : Nat} (v : Word) (he : e < 1024) (ho : IsViewReg o) :
    s.writeReg (oView e o) v = s.hostOwned (oView e o) (viewMask o) v := by
  unfold State.writeReg
  rw [regRow_view he ho]
  dsimp only
  rw [present_viewRow, if_neg (by decide), if_pos (show (viewRow o).owner = .host from rfl)]
  change s.hostOwned _ ((viewMask o ||| 0) &&& (2 ^ 64 - 1)) v = _
  rw [Nat.or_zero, viewMask_and_all]

theorem State.writeReg_viewHdr (s : State) {e : Nat} (v : Word) (he : e < 1024) :
    s.writeReg (oView e 0) v = s.commitView (oView e 0) (viewMask 0) v := by
  rw [s.writeReg_view v he (.inl rfl),
    s.hostOwned_view _ v (oView_bounds he (.inl rfl)).1 (oView_bounds he (.inl rfl)).2, if_pos (by unfold oView; omega)]

theorem State.writeReg_viewStride (s : State) {e o : Nat} (v : Word) (he : e < 1024) (ho : o = 8 ∨ o = 16) :
    s.writeReg (oView e o) v = { s with stage := tset s.stage (oView e o) (v &&& BitVec.ofNat 64 (viewMask o)) } := by
  rw [s.writeReg_view v he (.inr ho),
    s.hostOwned_view _ v (oView_bounds he (.inr ho)).1 (oView_bounds he (.inr ho)).2, if_neg (by unfold oView; omega)]

theorem State.storeRw_eq_setRegs (s : State) (off mask : Nat) (v : Word) :
    s.storeRw off mask v = { s with regs := (s.storeRw off mask v).regs } := by
  unfold State.storeRw
  dsimp only
  split <;> rfl

theorem State.storeRw_stage (s : State) (off mask : Nat) (v : Word) : (s.storeRw off mask v).stage = s.stage := by
  rw [s.storeRw_eq_setRegs]

theorem State.storeRw_reg_same (s : State) (off mask : Nat) (v : Word) :
    let m := BitVec.ofNat 64 mask
    let f := reservedField off v
    (s.storeRw off mask v).reg off = guardField (s.reg off) ((s.reg off &&& ~~~m) ||| (v &&& m)) f.1 f.2.1 f.2.2 :=
  State.reg_setReg_same ..

theorem State.storeRw_reg_other (s : State) {off x : Nat} (mask : Nat) (v : Word) (hoff : x ≠ off) (herr : x ≠ oGlbErr) :
    (s.storeRw off mask v).reg x = s.reg x := by
  unfold State.storeRw
  dsimp only
  rw [State.reg_setReg_other _ _ _ _ hoff]
  split
  · exact s.reg_setBit_other _ _ _ herr
  · rfl

theorem State.commitView_eq_setRegs (s : State) (off mask : Nat) (v : Word) :
    s.commitView off mask v = { s with regs := (s.commitView off mask v).regs } := by
  unfold State.commitView
  rw [s.storeRw_eq_setRegs]
  rfl

theorem State.commitView_reg_s12 (s : State) (off mask : Nat) (v : Word) :
    (s.commitView off mask v).reg (off + 8) = tget 0 s.stage (off + 8) := by
  unfold State.commitView
  dsimp only
  rw [State.reg_setReg_other _ _ _ _ (by omega), State.reg_setReg_same, State.storeRw_stage]

theorem State.commitView_reg_s34 (s : State) (off mask : Nat) (v : Word) :
    (s.commitView off mask v).reg (off + 16) = tget 0 s.stage (off + 16) := by
  unfold State.commitView
  dsimp only
  rw [State.reg_setReg_same, State.storeRw_stage]

theorem State.commitView_reg_other (s : State) {off x : Nat} (mask : Nat) (v : Word) (h8 : x ≠ off + 8) (h16 : x ≠ off + 16) :
    (s.commitView off mask v).reg x = (s.storeRw off mask v).reg x := by
  unfold State.commitView
  dsimp only
  rw [State.reg_setReg_other _ _ _ _ h16, State.reg_setReg_other _ _ _ _ h8]

/-! ## Fields of a register after a masked write -/

theorem bitAt_eq_testBit (w i : Nat) : bitAt w i = w.testBit i := by
  have hone : i + 1 - i = 1 := by omega
  simp [bitAt, fld, hone, Nat.testBit_eq_decide_div_mod_eq, Nat.shiftRight_eq_div_pow, Bool.beq_eq_decide_eq]

/-- A field whose bits are all RW takes the written value. -/
theorem wfld_merge (old v m : Word) (hi lo : Nat) (hm : ∀ i, lo ≤ i → i ≤ hi → m.getLsbD i = true) :
    wfld ((old &&& ~~~m) ||| (v &&& m)) hi lo = wfld v hi lo := by
  apply Nat.eq_of_testBit_eq
  intro i
  simp only [wfld, fld_testBit, word_testBit, BitVec.getLsbD_or, BitVec.getLsbD_and, BitVec.getLsbD_not]
  by_cases hin : i < hi + 1 - lo
  · simp [hm (lo + i) (by omega) (by omega)]
  · simp [hin]

theorem wfld_guardField_same (old new : Word) (hi lo : Nat) (bad : Bool) (h : lo ≤ hi) (hhi : hi < 64) :
    wfld (guardField old new hi lo bad) hi lo = if bad then wfld old hi lo else wfld new hi lo := by
  cases bad with
  | false => rfl
  | true => exact (wfld_wput_same _ _ _ _ h hhi).trans (Nat.mod_eq_of_lt (fld_lt _ _ _))

theorem wfld_guardField_other (old new : Word) (hi lo a b : Nat) (bad : Bool) (h : a < lo ∨ hi < b) :
    wfld (guardField old new hi lo bad) a b = wfld new a b := by
  cases bad with
  | false => rfl
  | true => exact wfld_wput_other _ _ _ _ _ _ h

/-! ## The header that a write commits -/

theorem reservedField_viewHdr (v : Word) {e : Nat} (he : e < 1024) :
    reservedField (oView e 0) v = (62, 60, wfld v 62 60 == 0 || decide (5 < wfld v 62 60)) := by
  unfold reservedField oView
  rw [if_neg (by omega), if_pos (by omega)]

theorem State.commitView_hdr (s : State) {e : Nat} (v : Word) (he : e < 1024) :
    let m := BitVec.ofNat 64 (viewMask 0)
    (s.commitView (oView e 0) (viewMask 0) v).reg (oView e 0) =
      guardField (s.reg (oView e 0)) ((s.reg (oView e 0) &&& ~~~m) ||| (v &&& m)) 62 60
        (wfld v 62 60 == 0 || decide (5 < wfld v 62 60)) := by
  dsimp only
  rw [s.commitView_reg_other _ v (by omega) (by omega), State.storeRw_reg_same, reservedField_viewHdr v he]

theorem State.commitView_hdr_bit (s : State) {e k : Nat} (v : Word) (he : e < 1024) (hk : k < 60 ∨ 62 < k)
    (hm : bitAt (viewMask 0) k = true) (h64 : k < 64) :
    (s.commitView (oView e 0) (viewMask 0) v).bit (oView e 0) k = bitAt v.toNat k := by
  have hbit : (BitVec.ofNat 64 (viewMask 0)).getLsbD k = true := by
    rw [BitVec.getLsbD_ofNat, ← bitAt_eq_testBit, hm]
    simpa using h64
  have hfld : wfld ((s.commitView (oView e 0) (viewMask 0) v).reg (oView e 0)) k k = wfld v k k := by
    rw [s.commitView_hdr v he, wfld_guardField_other _ _ _ _ _ _ _ hk]
    apply wfld_merge
    intro i hlo hhi
    rwa [show i = k by omega]
  exact congrArg (· == 1) hfld

theorem State.commitView_hdr_ndim (s : State) {e : Nat} (v : Word) (he : e < 1024) :
    (s.commitView (oView e 0) (viewMask 0) v).field (oView e 0) 62 60 =
      if 1 ≤ wfld v 62 60 ∧ wfld v 62 60 ≤ 5 then wfld v 62 60 else s.field (oView e 0) 62 60 := by
  have hm : ∀ i, 60 ≤ i → i ≤ 62 → (BitVec.ofNat 64 (viewMask 0)).getLsbD i = true := by
    intro i hlo hhi
    interval_cases i <;> rfl
  unfold State.field
  rw [s.commitView_hdr v he, wfld_guardField_same _ _ _ _ _ (by omega) (by omega), wfld_merge _ _ _ _ _ hm]
  by_cases hok : 1 ≤ wfld v 62 60 ∧ wfld v 62 60 ≤ 5
  · rw [if_pos hok, if_neg (by simp; omega)]
  · rw [if_neg hok, if_pos (by simp; omega)]

/-! ## An access of the register path in PS0 (R48, R261, R331) -/

/-- The state an access acts in: the turn is not quiet, the access's credit is taken. -/
def State.credited (s : State) : State :=
  { s with pw := { s.pw with quiet := false } }.modPort 12 fun q => { q with regCrd := q.regCrd - 1 }

/-- The response of an access and its credit go back. -/
def State.answered (s : State) (v : Word) : State :=
  ((s.drive (.reg v)).drive .regCrd).modPort 12 fun q => { q with regCrd := q.regCrd + 1 }

theorem State.Reached.awake {s : State} (h : s.Reached) : s.awake = true := by simp [State.awake, h.ps]

theorem State.Reached.regAccess {s : State} (h : s.Reached) (act : State → State × Word) :
    s.touch.regAccess act = (act s.credited).1.answered (act s.credited).2 := by
  rw [State.touch_of h.entry]
  unfold State.regAccess
  exact if_neg h.credit

theorem State.Reached.hostWrite {s : State} (h : s.Reached) (off : Nat) (v : Word) :
    s.hostWrite off v = (s.credited.writeReg off v).answered 0 := by
  unfold State.hostWrite
  rw [if_neg (by simp [h.poreset, h.awake]), h.regAccess]

theorem State.sample_of_le (s : State) {f : Word} (h : s.ftime.toNat ≤ f.toNat) : s.sample f = { s with ftime := f } := by
  unfold State.sample
  rw [if_neg (by omega)]

/-- A host read of what no power state exempts, at an `FTIME` not below its last sample. -/
theorem State.Reached.readClear {s : State} (h : s.Reached) {off : Nat} {f : Word} (hf : s.ftime.toNat ≤ f.toNat)
    (hx : exemptRead off = false) :
    execReadClear ⟨off, f⟩ s = .next (State.answered
      { State.clearRead { s.credited with ftime := f } off with free := s.free + 1 }
      (State.readReg { s.credited with ftime := f } off)) := by
  unfold execReadClear
  rw [if_neg (by simp [h.poreset, h.ps, h.awake]), hx, if_neg Bool.false_ne_true, h.regAccess]
  dsimp only
  rw [State.sample_of_le s.credited hf]
  rfl

/-- An access that leaves the ports to the register path gives port 12 the credit back that it took. -/
theorem State.Reached.port_answered {s u : State} (h : s.Reached) (hu : u.ports = s.credited.ports) (v : Word) (p : Nat) :
    (u.answered v).port p = s.port p := by
  have hport : ∀ q, (State.drive (u.drive (.reg v)) .regCrd).port q = s.credited.port q := by
    intro q
    simp only [State.port, State.drive, hu]
  unfold State.answered
  rw [State.port_modPort, hport, hport]
  unfold State.credited
  rw [State.port_modPort, State.port_modPort]
  split
  · subst p
    have hcredit : (s.port 12).regCrd - 1 + 1 = (s.port 12).regCrd := Nat.succ_pred_eq_of_ne_zero h.credit
    exact congrArg (fun n => { s.port 12 with regCrd := n }) hcredit
  · rfl

theorem State.Reached.accessed {s : State} (h : s.Reached) (r : Table Word) (v : Word) :
    s.Accessed (State.answered { s.credited with regs := r } v) v where
  driven := rfl
  power := rfl
  ports := h.port_answered rfl v
  rest := rfl

/-! ## Reads of a view entry (R9) -/

theorem State.shown_view (s : State) {off : Nat} (hlo : 0x8000 ≤ off) (hhi : off < 0x10000) : s.shown off = s.reg off := by
  unfold State.shown oIdVersion oIdConfig oIdInstance oIrqLine oIrqPend oCmdStat
  rw [if_neg (by omega), if_neg (by omega), if_neg (by omega), if_neg (by omega), if_neg (by omega), if_neg (by omega),
    if_neg (by omega), if_neg (by omega), if_neg (by omega), if_pos hhi]

theorem State.readReg_view (s : State) {e o : Nat} (he : e < 1024) (ho : IsViewReg o) :
    s.readReg (oView e o) = s.reg (oView e o) &&& BitVec.ofNat 64 (viewMask o) := by
  unfold State.readReg
  rw [regRow_view he ho]
  dsimp only
  rw [present_viewRow, s.shown_view (oView_bounds he ho).1 (oView_bounds he ho).2]
  change _ &&& BitVec.ofNat 64 ((0 ||| viewMask o ||| 0 ||| 0 ||| 0) &&& (2 ^ 64 - 1)) = _
  simp only [Nat.or_zero, Nat.zero_or, viewMask_and_all]

theorem State.clearRead_view (s : State) {e o : Nat} (he : e < 1024) (ho : IsViewReg o) : s.clearRead (oView e o) = s := by
  unfold State.clearRead
  rw [regRow_view he ho]
  exact if_pos (Nat.zero_and _)

theorem exemptRead_view {e o : Nat} (he : e < 1024) (ho : IsViewReg o) : exemptRead (oView e o) = false := by
  obtain ⟨hlo, hhi⟩ := oView_bounds he ho
  simp only [exemptRead, Bool.or_eq_false_iff, decide_eq_false_iff_not]
  omega

/-! ## The three rows (R78) -/

/-- A stride write changes its staging copy alone. -/
theorem State.Reached.exec_viewStrideWrite {s : State} (h : s.Reached) {e : Nat} (b : Bool) (v : Word) (he : e < 1024) :
    exec (.viewStrideWrite e b v) s = .next (State.answered
      { s.credited with stage := tset s.stage (oView e (if b then 16 else 8)) (v &&& 0x0FFFFFFF0FFFFFFF) } 0) := by
  have hserved : exec (.viewStrideWrite e b v) s = .next (s.hostWrite (oView e (if b then 16 else 8)) v) :=
    congrArg Host.Outcome.next (if_pos he)
  rw [hserved, h.hostWrite, State.writeReg_viewStride _ v he (by cases b <;> simp)]
  cases b <;> rfl

/-- A header write changes registers alone, as `commitView` says. -/
theorem State.Reached.exec_viewHdrWrite {s : State} (h : s.Reached) {e : Nat} (v : Word) (he : e < 1024) :
    exec (.viewHdrWrite e v) s = .next (State.answered
      { s.credited with regs := (s.credited.commitView (oView e 0) (viewMask 0) v).regs } 0) := by
  have hserved : exec (.viewHdrWrite e v) s = .next (s.hostWrite (oView e 0) v) := congrArg Host.Outcome.next (if_pos he)
  rw [hserved, h.hostWrite, State.writeReg_viewHdr _ v he, ← State.commitView_eq_setRegs]

/-- A read returns the committed register and changes none. -/
theorem State.Reached.exec_viewRead {s : State} (h : s.Reached) {e o : Nat} {f : Word} (hf : s.ftime.toNat ≤ f.toNat)
    (he : e < 1024) (ho : IsViewReg o) :
    exec (.readClear ⟨oView e o, f⟩) s = .next (State.answered { s.credited with ftime := f, free := s.free + 1 }
      (s.reg (oView e o) &&& BitVec.ofNat 64 (viewMask o))) := by
  change execReadClear _ s = _
  rw [h.readClear hf (exemptRead_view he ho), State.clearRead_view _ he ho, State.readReg_view _ he ho]
  rfl

/-- Settles O58: what each of the three rows does is its lemma above, what a header write commits is `commitView`'s lemmas. -/
theorem viewsAreCommittedByTheirHeader : Obligations.ViewsAreCommittedByTheirHeader := by
  unfold Obligations.ViewsAreCommittedByTheirHeader
  refine ⟨?stride, ?hdr, ?read, ?absent⟩
  case stride =>
    intro e b v s h he
    refine ⟨_, h.exec_viewStrideWrite b v he, rfl, rfl, ?_, ?_, h.port_answered rfl 0, rfl⟩
    · exact congrArg (Option.getD · 0) (tfind_tset_same ..)
    · intro x hx
      exact congrArg (Option.getD · 0) (tfind_tset_other _ _ _ _ hx)
  case hdr =>
    intro e v s h he
    refine ⟨_, h.exec_viewHdrWrite v he, h.accessed _ 0, ?_, ?_, ?_, ?_, ?_, ?_⟩
    · exact s.credited.commitView_reg_s12 (oView e 0) (viewMask 0) v
    · exact s.credited.commitView_reg_s34 (oView e 0) (viewMask 0) v
    · exact fun k hk hm => s.credited.commitView_hdr_bit v he (.inl hk) hm (by omega)
    · exact s.credited.commitView_hdr_bit v he (.inr (by omega)) (by decide) (by omega)
    · exact s.credited.commitView_hdr_ndim v he
    · intro x h0 h8 h16 herr
      exact (s.credited.commitView_reg_other _ v h8 h16).trans (s.credited.storeRw_reg_other _ v h0 herr)
  case read =>
    intro e f s h hf he q hq
    have hreg : IsViewReg q.1 ∧ BitVec.ofNat 64 (viewMask q.1) = q.2 := by
      simp only [List.mem_cons, List.not_mem_nil, or_false] at hq
      rcases hq with rfl | rfl | rfl
      · exact ⟨.inl rfl, rfl⟩
      · exact ⟨.inr (.inl rfl), rfl⟩
      · exact ⟨.inr (.inr rfl), rfl⟩
    obtain ⟨ho, hmask⟩ := hreg
    rw [h.exec_viewRead hf he ho, hmask]
    exact ⟨_, rfl, rfl, rfl, rfl⟩
  case absent =>
    intro e b v s he
    exact ⟨congrArg Host.Outcome.next (if_neg (by omega)), congrArg Host.Outcome.next (if_neg (by omega))⟩

end Sys2Proof.Machine
end

section
/-! PROOFS. Offsets without a register and the reserved register of a view entry (R77, R329). -/
namespace Sys2Proof.Machine

/-! ## The reserved register of a view entry (R77) -/

/-- The row of the reserved register of the view entries: no bit of it is readable or writable. -/
def reservedViewRow : RegRow := ⟨0x8018, 0x20, 1024, 0, .hw, .always, 0, 0, 0, 0, 0, 0, 0⟩

theorem regRow_viewReserved {e : Nat} (he : e < 1024) : regRow (oView e 24) = some (reservedViewRow, e) := by
  have hrow : reservedViewRow.indexOf (oView e 24) = some e := viewRow_indexOf (b := 24) he (by decide) (by decide)
  have hapart : ∀ b, b < 24 → (viewRow b).indexOf (oView e 24) = none := fun b hb =>
    (viewRow_indexOf he (by decide) (by omega)).trans (if_neg (by omega))
  unfold regRow
  rw [← rowIn_filter_meets (lo := 0x8000) (hi := 0xFFFF) (by unfold oView; omega) (by unfold oView; omega), regRows_of_views]
  change rowIn _ [viewRow 0, viewRow 8, viewRow 16, reservedViewRow] = _
  simp only [rowIn, hapart 0 (by decide), hapart 8 (by decide), hapart 16 (by decide), hrow]

theorem present_reservedViewRow (s : State) (i : Nat) : s.present reservedViewRow i = 2 ^ 64 - 1 := rfl

/-! ## Reads (R9, R329) -/

/-- An offset that reads 0: no register has it, or it is the reserved register of a view entry. -/
def ReadsZero (off : Nat) : Prop := regRow off = none ∨ ∃ e, e < 1024 ∧ off = oView e 24

theorem ReadsZero.readReg {off : Nat} (h : ReadsZero off) (s : State) : s.readReg off = 0 := by
  unfold State.readReg
  rcases h with hnone | ⟨e, he, rfl⟩
  · rw [hnone]
  · rw [regRow_viewReserved he]
    change _ &&& BitVec.ofNat 64 (0 &&& _) = 0
    rw [Nat.zero_and]
    exact BitVec.and_zero

theorem ReadsZero.clearRead {off : Nat} (h : ReadsZero off) (s : State) : s.clearRead off = s := by
  unfold State.clearRead
  rcases h with hnone | ⟨e, he, rfl⟩
  · rw [hnone]
  · rw [regRow_viewReserved he]
    exact if_pos (Nat.zero_and _)

/-- A host read of an offset that some power states exempt: it does not count as an arrival from outside (R261). -/
theorem State.Reached.readClear_exempt {s : State} (h : s.Reached) {off : Nat} {f : Word} (hf : s.ftime.toNat ≤ f.toNat)
    (hx : exemptRead off = true) :
    let u := { s.modPort 12 (fun q => { q with regCrd := q.regCrd - 1 }) with ftime := f }
    execReadClear ⟨off, f⟩ s = .next (State.answered { State.clearRead u off with free := s.free + 1 } (State.readReg u off)) := by
  unfold execReadClear State.regAccess
  rw [if_neg (by simp [h.poreset, h.ps, h.awake]), if_pos hx, if_neg h.credit]
  dsimp only
  rw [State.sample_of_le (s.modPort 12 _) hf]
  rfl

/-- A read of an offset that reads 0 is answered with 0 and changes no register, whether the offset is exempt or not. -/
theorem State.Reached.exec_readZero {s : State} (h : s.Reached) {off : Nat} {f : Word} (hf : s.ftime.toNat ≤ f.toNat)
    (hoff : ReadsZero off) :
    ∃ t : State, exec (.readClear ⟨off, f⟩) s = .next t ∧ t.driven = .regCrd :: .reg 0 :: s.driven ∧ t.regs = s.regs := by
  change ∃ t : State, execReadClear _ s = _ ∧ _
  cases hx : exemptRead off with
  | false =>
    rw [h.readClear hf hx, hoff.readReg, hoff.clearRead]
    exact ⟨_, rfl, rfl, rfl⟩
  | true =>
    rw [h.readClear_exempt hf hx, hoff.readReg, hoff.clearRead]
    exact ⟨_, rfl, rfl, rfl⟩

/-! ## Writes (R329, R332) -/

theorem State.bit_setBit_same (s : State) (o i : Nat) (hi : i < 64) : (s.setBit o i).bit o i = true := by
  have hput : wfld ((s.setBit o i).reg o) i i = 1 := by
    rw [show (s.setBit o i).reg o = wput (s.reg o) i i 1 from s.reg_setReg_same o _, wfld_wput_same _ _ _ _ le_rfl hi]
    simp
  exact congrArg (· == 1) hput

theorem State.bit_setBit_other (s : State) (o : Nat) {i k : Nat} (hk : k ≠ i) : (s.setBit o i).bit o k = s.bit o k := by
  have hkeep : wfld ((s.setBit o i).reg o) k k = wfld (s.reg o) k k := by
    rw [show (s.setBit o i).reg o = wput (s.reg o) i i 1 from s.reg_setReg_same o _, wfld_wput_other _ _ _ _ _ _ (by omega)]
  exact congrArg (· == 1) hkeep

/-- A write to an offset that no register has, port blocks apart, sets `GLB.ERR.UNMAPPED_WR` alone. -/
theorem State.writeReg_unassigned (s : State) {off : Nat} (v : Word) (hnone : regRow off = none) (hport : otherBlock off = false) :
    s.writeReg off v = s.setBit oGlbErr 2 := by
  unfold State.writeReg
  rw [hnone]
  exact if_neg (by simp [hport])

/-- A write to a register without ST bits and without bits of another owner stores what the register holds. -/
theorem State.clearSticky_none (s : State) (off : Nat) (v : Word) : s.clearSticky off 0 0 v = s.setReg off (s.reg off) := by
  have hbit : ∀ k, bitAt 0 k = false := fun k => by simp [bitAt_eq_testBit]
  have hkeep : s.reg off &&& ~~~(v &&& BitVec.ofNat 64 0) = s.reg off := by
    rw [BitVec.and_zero, BitVec.not_zero, BitVec.and_allOnes]
  simp only [State.clearSticky, hkeep, Nat.and_zero, hbit, Bool.false_eq_true, and_false, ne_eq, not_true_eq_false, if_false]

theorem State.writeReg_viewReserved (s : State) {e : Nat} (v : Word) (he : e < 1024) :
    s.writeReg (oView e 24) v = s.setReg (oView e 24) (s.reg (oView e 24)) := by
  unfold State.writeReg
  rw [regRow_viewReserved he]
  dsimp only
  rw [present_reservedViewRow, if_neg (by decide), if_neg (show reservedViewRow.owner ≠ .host by decide)]
  change s.clearSticky _ (0 &&& _) (0 &&& _) v = _
  rw [Nat.zero_and, s.clearSticky_none]

/-- A register write whose effect is one of registers alone. -/
theorem State.Reached.exec_registerWrite {s : State} (h : s.Reached) {off : Nat} {v : Word} {r : Table Word}
    (hr : s.credited.writeReg off v = { s.credited with regs := r }) :
    exec (.registerWrite off v) s = .next (State.answered { s.credited with regs := r } 0) := by
  change Host.Outcome.next (s.hostWrite off v) = _
  rw [h.hostWrite, hr]

/-- Settles O57: `ReadsZero` offsets read 0, an unassigned offset's write is one `setBit`, the reserved register's stores it back. -/
theorem unassignedOffsets : Obligations.UnassignedOffsets := by
  unfold Obligations.UnassignedOffsets
  refine ⟨?read, ?write, ?reserved⟩
  case read => exact fun off f s h hf hoff => h.exec_readZero hf hoff
  case write =>
    intro off v s h hnone hport
    refine ⟨_, h.exec_registerWrite (s.credited.writeReg_unassigned v hnone hport), h.accessed _ 0, ?_, ?_, ?_⟩
    · exact s.credited.bit_setBit_same oGlbErr 2 (by decide)
    · exact fun k _ hk => s.credited.bit_setBit_other oGlbErr hk
    · exact fun o ho => s.credited.reg_setBit_other oGlbErr 2 o ho
  case reserved =>
    intro e v s h he
    refine ⟨_, h.exec_registerWrite (s.credited.writeReg_viewReserved v he), h.accessed _ 0, fun o => ?_⟩
    change (s.credited.setReg _ _).reg o = s.reg o
    rw [State.reg_setReg]
    split
    · exact congrArg s.reg (Eq.symm ‹_›)
    · rfl

end Sys2Proof.Machine
end
